-- ==== Sys2Proof/Word.lean ====
section
/-! DEFINITION. The machine word (spec/00_scope.md R8). -/

namespace Sys2Proof

/-- Every interface word, register, RAM word and ROM word has 32 bits (R8). -/
abbrev Word := BitVec 32

end Sys2Proof
end

