-- ==== Sys2Proof/Syntax.lean ====
section
/-! DEFINITION. The registers, the commands and the command words as the port carries them
(spec/10_state.md R31, spec/30_encoding.md R80 to R85). -/

namespace Sys2Proof

/-- The nine registers of R31, in the order of their numbers 0 to 8. -/
inductive Reg where
  | cfg | status | cursor | phase | incr | feedback | curdly | tgtdly | depth
deriving DecidableEq, Repr

/-- The five words of one command: the command word and the four operand words (R80, R82). -/
structure Command where
  cmd : Word
  opa : Word
  opb : Word
  opc : Word
  opd : Word
deriving DecidableEq, Repr

/-- One constructor per row of `spec/opcode_table.json` (R84), with the operand words that R85
lists for it. `wrreg .cfg _` is no command (R86) and is not well formed (log entry 9). -/
inductive Instr where
  /-- NOP (R210). -/
  | nop
  /-- RDREG (R211). -/
  | rdreg (r : Reg)
  /-- WRREG (R212). -/
  | wrreg (r : Reg) (value : Word)
  /-- U2F (R110). -/
  | u2f (v : Word)
  /-- F2U (R111). -/
  | f2u (v : Word)
  /-- POW2M1 (R112). -/
  | pow2m1 (x : Word)
  /-- FASTPOW (R113). -/
  | fastpow (a b : Word)
  /-- LIMIT (R115). -/
  | limit (x : Word)
  /-- QSIN (R131). -/
  | qsin (index : Word)
  /-- DLYWR (R141). -/
  | dlywr (sample : Word)
  /-- DLYRD (R143). -/
  | dlyrd (delay : Word)
  /-- LFOSTEP.SINE (R168). -/
  | lfostepSine
  /-- LFOSTEP.TRI (R167). -/
  | lfostepTri
  /-- LFOSTEP.SAW (R169). -/
  | lfostepSaw
  /-- LFOSETSTEP (R161). -/
  | lfosetstep (rawStep : Word)
  /-- LFOSETFREQ (R162). -/
  | lfosetfreq (hz : Word)
  /-- LFOSETPER (R164). -/
  | lfosetper (ms : Word)
  /-- SMOOTH (R181). -/
  | smooth
  /-- ECHOINIT (R190); `p2` is carried and unused (R194). -/
  | echoinit (p1 p2 p3 p4 : Word)
  /-- ECHOSTEP (R195). -/
  | echostep (x : Word)
  /-- ECHOSAMPLE (R197). -/
  | echosample (x : Word)
deriving DecidableEq, Repr

end Sys2Proof
end

