-- ==== Sys2Proof/WellFormed.lean ====
section
/-! DEFINITION. Which instruction terms are commands (spec/30_encoding.md R83, R86). -/

namespace Sys2Proof

/-- WRREG names a register 1 to 8, so CFG cannot be written (R83, R212); every other term is a
command. A QSIN index above STEPS is a command that is refused when it runs (R86, R131). -/
def Instr.wf : Instr → Bool
  | .wrreg r _ => r != .cfg
  | .nop | .rdreg _ | .u2f _ | .f2u _ | .pow2m1 _ | .fastpow _ _ | .limit _ | .qsin _
  | .dlywr _ | .dlyrd _ | .lfostepSine | .lfostepTri | .lfostepSaw | .lfosetstep _
  | .lfosetfreq _ | .lfosetper _ | .smooth | .echoinit _ _ _ _ | .echostep _
  | .echosample _ => true

end Sys2Proof
end

