-- ==== Sys2Proof/Decode.lean ====
section
/-! DEFINITION. The decoder of spec/30_encoding.md R86 and the encoder of R84, R85. -/

namespace Sys2Proof

/-- Why a command word is reserved (R93). Every reason has the same outcome (R224); the model
names the first that applies in the order of R86 (log entry 8). -/
inductive Reserved where
  /-- Bits 31:16 are not zero. -/
  | zNotZero
  /-- The opcode is not in R84. -/
  | opcode (op : Nat)
  /-- RDREG or WRREG with F above 8. -/
  | register (f : Nat)
  /-- WRREG with F = 0: CFG is read-only. -/
  | cfgIsReadOnly
  /-- LFOSTEP with F above 2. -/
  | waveform (f : Nat)
  /-- F is not zero in a command that has no function field. -/
  | function (f : Nat)
deriving DecidableEq, Repr

/-- The Z field, bits 31:16 (R82). -/
def fieldZ (w : Word) : Nat := (w.extractLsb' 16 16).toNat

/-- The F field, bits 15:8, unsigned (R82, R83). -/
def fieldF (w : Word) : Nat := (w.extractLsb' 8 8).toNat

/-- The OP field, bits 7:0 (R82). -/
def fieldOp (w : Word) : Nat := (w.extractLsb' 0 8).toNat

/-- The register with a number (R31). -/
def Reg.ofNumber : Nat → Option Reg
  | 0 => some .cfg
  | 1 => some .status
  | 2 => some .cursor
  | 3 => some .phase
  | 4 => some .incr
  | 5 => some .feedback
  | 6 => some .curdly
  | 7 => some .tgtdly
  | 8 => some .depth
  | _ => none

/-- The number of a register (R31). -/
def Reg.number : Reg → Nat
  | .cfg => 0
  | .status => 1
  | .cursor => 2
  | .phase => 3
  | .incr => 4
  | .feedback => 5
  | .curdly => 6
  | .tgtdly => 7
  | .depth => 8

/-- The commands whose F field must be zero (R86), with the operands R85 gives them. -/
def decodePlain (op : Nat) (c : Command) : Option Instr :=
  match op with
  | 0x00 => some .nop
  | 0x10 => some (.u2f c.opa)
  | 0x11 => some (.f2u c.opa)
  | 0x12 => some (.pow2m1 c.opa)
  | 0x13 => some (.fastpow c.opa c.opb)
  | 0x14 => some (.limit c.opa)
  | 0x18 => some (.qsin c.opa)
  | 0x20 => some (.dlywr c.opa)
  | 0x21 => some (.dlyrd c.opa)
  | 0x31 => some (.lfosetstep c.opa)
  | 0x32 => some (.lfosetfreq c.opa)
  | 0x33 => some (.lfosetper c.opa)
  | 0x40 => some .smooth
  | 0x41 => some (.echoinit c.opa c.opb c.opc c.opd)
  | 0x42 => some (.echostep c.opa)
  | 0x43 => some (.echosample c.opa)
  | _ => none

/-- RDREG with function field `f` (R86). -/
def decodeRdreg (f : Nat) : Except Reserved Instr :=
  match Reg.ofNumber f with
  | some r => .ok (.rdreg r)
  | none => .error (.register f)

/-- WRREG with function field `f` (R86): F = 0 is refused, since CFG is read-only. -/
def decodeWrreg (f : Nat) (value : Word) : Except Reserved Instr :=
  if f = 0 then .error .cfgIsReadOnly
  else
    match Reg.ofNumber f with
    | some r => .ok (.wrreg r value)
    | none => .error (.register f)

/-- LFOSTEP with function field `f` (R83, R86). -/
def decodeLfostep (f : Nat) : Except Reserved Instr :=
  match f with
  | 0 => .ok .lfostepSine
  | 1 => .ok .lfostepTri
  | 2 => .ok .lfostepSaw
  | _ => .error (.waveform f)

/-- The decoder of R86: the command, or the reason the command word is reserved (R93). -/
def decode (c : Command) : Except Reserved Instr :=
  if fieldZ c.cmd ≠ 0 then .error .zNotZero
  else if fieldOp c.cmd = 0x01 then decodeRdreg (fieldF c.cmd)
  else if fieldOp c.cmd = 0x02 then decodeWrreg (fieldF c.cmd) c.opa
  else if fieldOp c.cmd = 0x30 then decodeLfostep (fieldF c.cmd)
  else
    match decodePlain (fieldOp c.cmd) c with
    | some i => if fieldF c.cmd = 0 then .ok i else .error (.function (fieldF c.cmd))
    | none => .error (.opcode (fieldOp c.cmd))

/-- The command whose bits are `w`: the command word is bits 31:0 and the operand words opa, opb,
opc and opd follow in that order, each of 32 bits. -/
def Command.ofNat (w : Nat) : Command where
  cmd := BitVec.ofNat 32 w
  opa := BitVec.ofNat 32 (w / 2 ^ 32)
  opb := BitVec.ofNat 32 (w / 2 ^ 64)
  opc := BitVec.ofNat 32 (w / 2 ^ 96)
  opd := BitVec.ofNat 32 (w / 2 ^ 128)

/-- The instruction the decoder reads from the `nbits` bits `w`, every higher bit being zero. -/
def decodeTableWord (nbits w : Nat) : Option Instr :=
  match decode (Command.ofNat (w % 2 ^ nbits)) with
  | .ok i => some i
  | .error _ => none

/-- The function field of an instruction (R83, R84). -/
def Instr.function : Instr → Nat
  | .rdreg r => r.number
  | .wrreg r _ => r.number
  | .lfostepTri => 1
  | .lfostepSaw => 2
  | .nop | .u2f _ | .f2u _ | .pow2m1 _ | .fastpow _ _ | .limit _ | .qsin _ | .dlywr _
  | .dlyrd _ | .lfostepSine | .lfosetstep _ | .lfosetfreq _ | .lfosetper _ | .smooth
  | .echoinit _ _ _ _ | .echostep _ | .echosample _ => 0

/-- The opcode of an instruction (R84). -/
def Instr.opcode : Instr → Nat
  | .nop => 0x00
  | .rdreg _ => 0x01
  | .wrreg _ _ => 0x02
  | .u2f _ => 0x10
  | .f2u _ => 0x11
  | .pow2m1 _ => 0x12
  | .fastpow _ _ => 0x13
  | .limit _ => 0x14
  | .qsin _ => 0x18
  | .dlywr _ => 0x20
  | .dlyrd _ => 0x21
  | .lfostepSine | .lfostepTri | .lfostepSaw => 0x30
  | .lfosetstep _ => 0x31
  | .lfosetfreq _ => 0x32
  | .lfosetper _ => 0x33
  | .smooth => 0x40
  | .echoinit _ _ _ _ => 0x41
  | .echostep _ => 0x42
  | .echosample _ => 0x43

/-- The operand words of an instruction in the order OPA, OPB, OPC, OPD (R85); an operand the
command does not read is 0x00000000, as the assembler of R94 writes it. -/
def Instr.operands : Instr → Word × Word × Word × Word
  | .wrreg _ a | .u2f a | .f2u a | .pow2m1 a | .limit a | .qsin a | .dlywr a | .dlyrd a
  | .lfosetstep a | .lfosetfreq a | .lfosetper a | .echostep a | .echosample a => (a, 0, 0, 0)
  | .fastpow a b => (a, b, 0, 0)
  | .echoinit a b c d => (a, b, c, d)
  | .nop | .rdreg _ | .lfostepSine | .lfostepTri | .lfostepSaw | .smooth => (0, 0, 0, 0)

/-- The encoder of R82, R84, R85: Z is zero, F in bits 15:8, OP in bits 7:0. -/
def encode (i : Instr) : Command where
  cmd := BitVec.ofNat 32 (i.function * 2 ^ 8 + i.opcode)
  opa := i.operands.1
  opb := i.operands.2.1
  opc := i.operands.2.2.1
  opd := i.operands.2.2.2

end Sys2Proof
end

