-- ==== Sys2Proof/Config.lean ====
section
/-! DEFINITION. The parameters of one GPCORE instance (spec/00_scope.md R6). -/

namespace Sys2Proof

/-- The named parameters of R6 that a rule depends on, with their legal values.
`CMD_LATENCY` and `RESET_CYCLES` have no field: no rule depends on them (R6, log entry 7).
The default instance is `Config.default` in `Machine/Params.lean`. -/
structure Config where
  /-- `DELAY_LOG2`: log2 of the delay RAM capacity. -/
  delayLog2 : Nat
  /-- `QSIN_LOG2`: log2 of STEPS. -/
  qsinLog2 : Nat
  /-- `FASTPOW_K`, as a 32-bit word read as s32 (DEDUCED, safe: log entry 5). -/
  fastpowK : Word
  /-- `SINE_ROM`: the STEPS+1 words of the sine ROM (R43, R130). -/
  sineRom : List Word
  /-- The legal values of R6. -/
  legal : 1 ≤ delayLog2 ∧ delayLog2 ≤ 24 ∧ 1 ≤ qsinLog2 ∧ qsinLog2 ≤ 16 ∧
    sineRom.length = 2 ^ qsinLog2 + 1
deriving DecidableEq, Repr

end Sys2Proof
end

