-- ==== Sys2Proof/Machine/State.lean ====
section
/-! DEFINITION. The state of one GPCORE instance (spec/10_state.md), its command port
(spec/30_encoding.md R80), its reset state (spec/70_reset_and_hazards.md R240), and the plain
updates of one field. -/

namespace Sys2Proof.Machine

/-- GPCORE raises no exception and no access stops it (R221, R225), so there is no fault: the type
has no constructor. -/
inductive Fault
deriving DecidableEq, Repr

/-- No meaning of this model refuses in Lean's sense: a command the core refuses is a next state
(R220). -/
inductive Refusal where
  /-- An arm of `exec` that has no meaning yet would raise it; no arm does. Safe: the model stops. -/
  | notModelled (mnemonic : String)
deriving DecidableEq, Repr

/-- The delay RAM (R42) as (index, word) pairs, indices strictly rising and no pair equal to what
an unlisted index reads as. It holds words, never bytes (R61; DEDUCED, safe: log entry 3). -/
abbrev Memory := List (Nat × Word)

/-- RESP (R81). -/
inductive Resp where
  | ok | illegal
deriving DecidableEq, Repr

/-- The pair the host receives for one command (R81, R253). -/
structure Response where
  resp : Resp
  res : Word
deriving DecidableEq, Repr

/-- What the host drives at one rising edge of `clk` (R80, R241): `rst`, the command words when
`cmd_valid` is 1, and `rsp_ready` (DESIGN CHOICE, safe: log entry 1). -/
structure PortInput where
  rst : Bool
  cmd : Option Command
  rspReady : Bool
deriving DecidableEq, Repr

/-- The state of one instance. -/
structure State where
  /-- The parameters of R6, the CFG register's fields (R32) and the sine ROM (R43) among them;
  constant (DESIGN CHOICE, safe: log entry 2). -/
  config : Config
  /-- STATUS, register 1 (R33). -/
  status : Word
  /-- CURSOR, register 2 (R35). -/
  cursor : Word
  /-- PHASE, register 3 (R36). -/
  phase : Word
  /-- INCR, register 4 (R37). -/
  incr : Word
  /-- FEEDBACK, register 5 (R38). -/
  feedback : Word
  /-- CURDLY, register 6 (R39). -/
  curdly : Word
  /-- TGTDLY, register 7 (R40). -/
  tgtdly : Word
  /-- DEPTH, register 8 (R41). -/
  depth : Word
  /-- The delay RAM (R42). -/
  ram : Memory
  /-- The response the port holds, `rsp_valid` with `rsp_ill` and `res` (R80, R81). -/
  rsp : Option Response
  /-- The host's port samples still to come: the model's own field (log entry 1). -/
  inputs : List PortInput
  /-- The responses the host has taken since reset, oldest first: the model's record of R253. -/
  responses : List Response
  /-- Whether a command was refused since reset: the model's run-wide mark of R220. -/
  refusalMark : Bool
deriving DecidableEq, Repr

/-- The state of R240 with the default parameters of R6. -/
def State.reset : State where
  config := Config.default
  status := 0
  cursor := 0
  phase := 0
  incr := 0
  feedback := 0
  curdly := 0
  tgtdly := 0
  depth := 0
  ram := []
  rsp := none
  inputs := []
  responses := []
  refusalMark := false

/-- `cmd_ready`: no response is outstanding (R80). -/
def State.cmdReady (s : State) : Bool := s.rsp.isNone

def State.setStatus (s : State) (v : Word) : State := { s with status := v }
def State.setCursor (s : State) (v : Word) : State := { s with cursor := v }
def State.setPhase (s : State) (v : Word) : State := { s with phase := v }
def State.setIncr (s : State) (v : Word) : State := { s with incr := v }
def State.setFeedback (s : State) (v : Word) : State := { s with feedback := v }
def State.setCurdly (s : State) (v : Word) : State := { s with curdly := v }
def State.setTgtdly (s : State) (v : Word) : State := { s with tgtdly := v }
def State.setDepth (s : State) (v : Word) : State := { s with depth := v }
def State.setRam (s : State) (m : Memory) : State := { s with ram := m }
def State.setRsp (s : State) (r : Option Response) : State := { s with rsp := r }
def State.setInputs (s : State) (l : List PortInput) : State := { s with inputs := l }
def State.setResponses (s : State) (l : List Response) : State := { s with responses := l }
def State.setRefusalMark (s : State) (b : Bool) : State := { s with refusalMark := b }

/-- What running a command answers. -/
abbrev Result := Host.Outcome State Fault Refusal

end Sys2Proof.Machine
end

