-- ==== Sys2Proof/Machine/Flags.lean ====
section
/-! DEFINITION. The flags of STATUS (spec/10_state.md R33, R34). -/

namespace Sys2Proof.Machine

/-- The flags of R33. -/
inductive Flag where
  /-- A delay read was out of contract (R142). -/
  | alias_
  /-- A FASTPOW operand was outside the formula's domain (R113). -/
  | fpdom
  /-- ECHOINIT ignored a delay target (R191). -/
  | tgtign
  /-- An LFO period was clamped (R163). -/
  | perclamp
  /-- A command was refused (R220). -/
  | illcmd
  /-- ECHOINIT has run since reset (R194). -/
  | initd
deriving DecidableEq, Repr

/-- The bit of STATUS that holds a flag (R33). -/
def Flag.bit : Flag → Nat
  | .alias_ => 0
  | .fpdom => 1
  | .tgtign => 2
  | .perclamp => 3
  | .illcmd => 4
  | .initd => 8

/-- The STATUS word in which only this flag is set. -/
def Flag.word (f : Flag) : Word := BitVec.ofNat 32 (2 ^ f.bit)

/-- `STATUS.F <- 1` (R15): a sticky flag, so every other bit keeps its value (R33). -/
def State.raise (s : State) (f : Flag) : State := s.setStatus (s.status ||| f.word)

/-- `STATUS.F <- 1` when the case occurred, and nothing otherwise. -/
def State.raiseIf (s : State) (occurred : Bool) (f : Flag) : State :=
  if occurred then s.raise f else s

/-- Whether a flag is set. -/
def State.flag (s : State) (f : Flag) : Bool := s.status.getLsbD f.bit

/-- The bits of STATUS that WRREG STATUS can clear, 4:0 (R34). -/
def clearableBits : Word := 0x0000001F#32

/-- The bits of STATUS that are not reserved: 8 and 4:0 (R33). -/
def definedBits : Word := 0x0000011F#32

/-- WRREG STATUS (R34): a 1 in bits 4:0 clears that flag, every other bit stays. -/
def clearedStatus (status v : Word) : Word := status &&& ~~~(v &&& clearableBits)

end Sys2Proof.Machine
end

