-- ==== Sys2Proof/Machine/Float32.lean ====
section
/-! DEFINITION. IEEE-754 binary32 as spec/00_scope.md R10 to R14 give it.

Every finite datum is an integer multiple of 2^-149. The model computes with that integer
(`units`), so that each operation has its exact result as a ratio of integers and rounds it once
(R12). `val` is the rational value of R10 itself, for statements. -/

namespace Sys2Proof.F32

/-- Bit 31, the sign (R10). -/
def sign (x : Word) : Bool := x.msb

/-- Bits 30:23, the exponent field (R10). -/
def expo (x : Word) : Nat := x.toNat / 2 ^ 23 % 2 ^ 8

/-- Bits 22:0, the fraction field (R10). -/
def frac (x : Word) : Nat := x.toNat % 2 ^ 23

/-- NaN (R10). -/
def isNaN (x : Word) : Bool := expo x == 255 && frac x != 0

/-- Plus or minus infinity (R10). -/
def isInf (x : Word) : Bool := expo x == 255 && frac x == 0

/-- A finite datum (R10). -/
def isFinite (x : Word) : Bool := expo x != 255

/-- The magnitude of a finite datum in units of 2^-149: the value formula of R10 times 2^149. On an
infinity the same formula gives 2^277, above the magnitude of every finite datum. -/
def mag (x : Word) : Nat :=
  if expo x = 0 then frac x else (2 ^ 23 + frac x) * 2 ^ (expo x - 1)

/-- The value of a finite datum in units of 2^-149 (R10). -/
def units (x : Word) : Int := if sign x then -(mag x : Int) else mag x

/-- The exact rational of a finite datum, by the formula of R10. -/
def val (x : Word) : ℚ :=
  (if sign x then -1 else 1) *
    (if expo x = 0 then (frac x : ℚ) * 2 ^ (-149 : ℤ)
     else (2 ^ 23 + (frac x : ℚ)) * 2 ^ ((expo x : ℤ) - 150))

/-- The canonical quiet NaN (R13). -/
def canonicalNaN : Word := 0x7FC00000#32

/-- The magnitude bits of an infinity. -/
def infBits : Nat := 0x7F800000

/-- The magnitude bits of the largest finite datum (R11). -/
def maxFiniteBits : Nat := 0x7F7FFFFF

/-- A sign and the magnitude bits 30:0 as a word. -/
def pack (neg : Bool) (bits : Nat) : Word := BitVec.ofNat 32 ((if neg then 2 ^ 31 else 0) + bits)

/-- The infinity of a sign. -/
def inf (neg : Bool) : Word := pack neg infBits

/-- The zero of a sign. -/
def zero (neg : Bool) : Word := pack neg 0

/-- `num / den` rounded to the nearest integer, ties to the even one. -/
def roundHalfEven (num den : Nat) : Nat :=
  if den < 2 * (num % den) ∨ (2 * (num % den) = den ∧ num / den % 2 = 1) then num / den + 1
  else num / den

/-- The exponent `k` for which 2^k units is the spacing of the 24-bit data around a magnitude whose
integer part is `n` units; 0 in the subnormal and the lowest normal range. -/
def spacing (n : Nat) : Nat := Nat.log2 n - 23

/-- RNE (R11) of the magnitude `num / den`, in units of 2^-149, as magnitude bits. A magnitude of
`m` spacings of 2^k units, m ≤ 2^24, has the bits k * 2^23 + m; overflow gives infinity. -/
def rneBits (num den : Nat) : Nat :=
  min (spacing (num / den) * 2 ^ 23 + roundHalfEven num (den * 2 ^ spacing (num / den))) infBits

/-- RTZ (R11) of the magnitude `num / den`, in units of 2^-149, as magnitude bits, saturating at
the largest finite magnitude. -/
def rtzBits (num den : Nat) : Nat :=
  min (spacing (num / den) * 2 ^ 23 + num / (den * 2 ^ spacing (num / den))) maxFiniteBits

/-- RNE of a nonzero rational of sign `neg` and magnitude `num / den` units. A magnitude that
rounds to zero keeps the sign (DEDUCED, log entry 15). -/
def rne (neg : Bool) (num den : Nat) : Word := pack neg (rneBits num den)

/-- RTZ of a nonnegative rational of `num / den` units. -/
def rtz (num den : Nat) : Word := pack false (rtzBits num den)

/-- `c32` of the decimal constant `num / den`, with its sign (R11). -/
def c32 (neg : Bool) (num den : Nat) : Word := rne neg (num * 2 ^ 149) den

/-- `RNE(q)` of a rational (R11); `RNE(0)` is +0. Statements name it; the operations below give `rne`
the same exact result as a ratio of integers. -/
def roundNearest (q : ℚ) : Word :=
  if q = 0 then zero false else rne (decide (q < 0)) (q.num.natAbs * 2 ^ 149) q.den

/-- `RTZ(q)` of a rational (R11); `RTZ(0)` is +0. -/
def roundTowardZero (q : ℚ) : Word :=
  if q = 0 then zero false else pack (decide (q < 0)) (rtzBits (q.num.natAbs * 2 ^ 149) q.den)

/-- `neg(x)`: bit 31 flipped and no other bit changed (R14). -/
def neg (x : Word) : Word := x ^^^ 0x80000000#32

/-- `x ⊕ y` of finite data (R12): the exact sum rounded once; an exact zero is +0 unless both
operands are negative zeros. -/
def addFinite (x y : Word) : Word :=
  if units x + units y = 0 then zero (sign x && sign y)
  else rne (decide (units x + units y < 0)) (units x + units y).natAbs 1

/-- `x ⊕ y` (R12). -/
def add (x y : Word) : Word :=
  if isNaN x || isNaN y then canonicalNaN
  else if isInf x then if isInf y && sign x != sign y then canonicalNaN else x
  else if isInf y then y
  else addFinite x y

/-- `x ⊖ y` (R12): IEEE subtraction adds the negated operand. -/
def sub (x y : Word) : Word := add x (neg y)

/-- The sign of a product or quotient (R12). -/
def xorSign (x y : Word) : Bool := sign x != sign y

/-- `x ⊗ y` (R12). -/
def mul (x y : Word) : Word :=
  if isNaN x || isNaN y then canonicalNaN
  else if isInf x || isInf y then
    if mag x = 0 ∨ mag y = 0 then canonicalNaN else inf (xorSign x y)
  else if mag x * mag y = 0 then zero (xorSign x y)
  else rne (xorSign x y) (mag x * mag y) (2 ^ 149)

/-- `x ⊘ y` (R12). -/
def div (x y : Word) : Word :=
  if isNaN x || isNaN y then canonicalNaN
  else if isInf x then if isInf y then canonicalNaN else inf (xorSign x y)
  else if isInf y then zero (xorSign x y)
  else if mag y = 0 then if mag x = 0 then canonicalNaN else inf (xorSign x y)
  else if mag x = 0 then zero (xorSign x y)
  else rne (xorSign x y) (mag x * 2 ^ 149) (mag y)

/-- `x < y` (R14): false when an operand is NaN, the zeros equal, the infinities at the ends (see
`mag`). -/
def lt (x y : Word) : Bool := !isNaN x && !isNaN y && decide (units x < units y)

/-- `x < n` against the exact value of the integer `n`, |n| < 2^128 (R14). -/
def ltNat (x : Word) (n : Nat) : Bool := !isNaN x && decide (units x < n * 2 ^ 149)

end Sys2Proof.F32
end

