-- ==== Sys2Proof/Machine/Operands.lean ====
section
/-! DEFINITION. The readings of an operand word (spec/00_scope.md R8, spec/30_encoding.md R85) and
the conversions between binary32 and integers (spec/40_fastmath.md R101): U2F, F2U, the increment
rounding, the floor and fraction of a delay, and FASTPOW's truncation. -/

namespace Sys2Proof.Operand

/-- `u32(v)` (R8). -/
def u32 (v : Word) : Nat := v.toNat

/-- `s32(v)` (R8). -/
def s32 (v : Word) : Int := v.toInt

/-- The word whose s32 reading is `r` (R113). -/
def ofS32 (r : Int) : Word := BitVec.ofInt 32 r

/-- `U2F(v) = RTZ(u32(v) * 2^-32)` (R110). -/
def u2f (v : Word) : Word := F32.rtz (u32 v * 2 ^ 149) (2 ^ 32)

/-- `fraction_to_uint` (R111): floor of x * 2^32, saturated to the u32 range, 0 for NaN. -/
def f2u (x : Word) : Word :=
  if F32.isNaN x then 0
  else if F32.units x ≤ 0 then 0
  else if 2 ^ 149 ≤ F32.units x then 0xFFFFFFFF#32
  else BitVec.ofNat 32 (F32.mag x * 2 ^ 32 / 2 ^ 149)

/-- The integer nearest a finite datum, ties to even (R160). -/
def nearestInt (x : Word) : Int :=
  if F32.sign x then -(F32.roundHalfEven (F32.mag x) (2 ^ 149) : Int)
  else F32.roundHalfEven (F32.mag x) (2 ^ 149)

/-- The increment of SetStep (R160): nearest integer, saturated to the u32 range, 0 for NaN. -/
def stepWord (r : Word) : Word :=
  if F32.isNaN r then 0
  else if F32.isInf r then if F32.sign r then 0 else 0xFFFFFFFF#32
  else BitVec.ofNat 32 (min (max (nearestInt r) 0) (2 ^ 32 - 1)).toNat

/-- The floor of a finite datum (R142), which may be negative. -/
def floorInt (d : Word) : Int := F32.units d / 2 ^ 149

/-- The integer part `i` of a delay, modulo 2^32; 0 for a delay that is not finite (R142). -/
def delayWhole (d : Word) : Word :=
  if F32.isFinite d then BitVec.ofInt 32 (floorInt d) else 0

/-- The fraction `f` of a delay, RNE(val(d) - floor(val(d))); +0 for a delay that is not finite
(R142). -/
def delayFraction (d : Word) : Word :=
  if F32.isFinite d then F32.rne false (F32.units d % 2 ^ 149).toNat 1 else 0

/-- FASTPOW's `trunc(val(b) * (s32(a) - K) + K)` (R113), for a finite `b`: the transform is exact,
and the truncation is toward zero. -/
def powTransform (k a b : Word) : Int :=
  (F32.units b * (s32 a - s32 k) + s32 k * 2 ^ 149).tdiv (2 ^ 149)

/-- Saturation to the s32 range (R113). -/
def saturateS32 (r : Int) : Int := min (max r (-2 ^ 31)) (2 ^ 31 - 1)

/-- The result of FASTPOW (R113); 0 when the exponent is not finite. -/
def fastpow (k a b : Word) : Word :=
  if F32.isFinite b then ofS32 (saturateS32 (powTransform k a b)) else 0

/-- FASTPOW's domain (R113): a finite positive base and a finite exponent. -/
def powDomain (a b : Word) : Bool :=
  F32.isFinite a && decide (0 < F32.units a) && F32.isFinite b

end Sys2Proof.Operand
end

