-- ==== Sys2Proof/Machine/Ops.lean ====
section
/-! DEFINITION. The named operations over the delay RAM, the sine ROM, the registers and the
command port (spec/00_scope.md R15, spec/20_memory.md, spec/46_control.md, spec/60_exceptions.md). -/

namespace Sys2Proof.Machine

/-- What a RAM index that nothing has written since reset reads as (R62). -/
def Memory.unlisted : Word := 0x00000000#32

/-- The word at an index (R62). -/
def Memory.read : Memory → Nat → Word
  | [], _ => Memory.unlisted
  | (j, v) :: m, i => if i = j then v else if i < j then Memory.unlisted else Memory.read m i

/-- A pair in front of a memory, unless its index would read the same without it. -/
def Memory.cons (i : Nat) (v : Word) (m : Memory) : Memory :=
  if v = Memory.unlisted then m else (i, v) :: m

/-- The memory with one word replaced (R63), in canonical form. -/
def Memory.write : Memory → Nat → Word → Memory
  | [], i, v => Memory.cons i v []
  | (j, w) :: m, i, v =>
    if i = j then Memory.cons i v m
    else if i < j then Memory.cons i v ((j, w) :: m)
    else (j, w) :: Memory.write m i v

/-- Every listed index is above `i`. -/
def Memory.above (i : Nat) (m : Memory) : Bool := m.all fun p => decide (i < p.1)

/-- The canonical form: indices strictly rising, no pair an unlisted index would equal. -/
def Memory.wf : Memory → Bool
  | [] => true
  | (j, v) :: m => v != Memory.unlisted && Memory.above j m && Memory.wf m

/-- Every listed index is one of the capacity's 0 to N-1 (R42). -/
def Memory.within (n : Nat) (m : Memory) : Bool := m.all fun p => decide (p.1 < n)

/-- The RAM index of a cursor position, `w & MASK` (R140, R142). -/
def State.ramIndex (s : State) (w : Word) : Nat := (w &&& s.config.mask).toNat

/-- `RamRead(i)` (R62). -/
def State.ramRead (s : State) (i : Nat) : Word := s.ram.read i

/-- `RamWrite(i, v)` (R63). -/
def State.ramWrite (s : State) (i : Nat) (v : Word) : State := s.setRam (s.ram.write i v)

/-- `RomRead(i)` for 0 ≤ i ≤ STEPS (R64). A configuration's ROM has STEPS+1 words, so the word that
stands for a missing one is never read. -/
def romRead (c : Config) (i : Nat) : Word := c.sineRom.getD i 0

/-- The CFG register (R32): DLOG2 in bits 4:0, QLOG2 in bits 12:8, the rest 0. -/
def cfgWord (c : Config) : Word := BitVec.ofNat 32 (c.qsinLog2 * 2 ^ 8 + c.delayLog2)

/-- `REG[F]`, all 32 bits (R31, R211). -/
def State.readReg (s : State) : Reg → Word
  | .cfg => cfgWord s.config
  | .status => s.status
  | .cursor => s.cursor
  | .phase => s.phase
  | .incr => s.incr
  | .feedback => s.feedback
  | .curdly => s.curdly
  | .tgtdly => s.tgtdly
  | .depth => s.depth

/-- The end of a command that is not refused: RESP = OK with the result word (R81). -/
def State.answer (s : State) (res : Word) : State := s.setRsp (some ⟨.ok, res⟩)

/-- `refuse(ILLEGAL)` (R220): ILLCMD is set, the response is ILLEGAL with result 0, the run-wide
mark is set, and nothing else changes. It is the only way a command ends without its effect; the
hardware has no trap and no return from one (R225, R226). -/
def State.refuse (s : State) : State :=
  ((s.raise .illcmd).setRsp (some ⟨.illegal, 0⟩)).setRefusalMark true

/-- `REG[F] <- v` as WRREG does it (R212): STATUS is write-1-to-clear, every other register takes
every bit. CFG is read-only; `wrreg .cfg` is refused before it comes here. -/
def State.writeReg (s : State) (r : Reg) (v : Word) : State :=
  match r with
  | .cfg => s
  | .status => s.setStatus (clearedStatus s.status v)
  | .cursor => s.setCursor v
  | .phase => s.setPhase v
  | .incr => s.setIncr v
  | .feedback => s.setFeedback v
  | .curdly => s.setCurdly v
  | .tgtdly => s.setTgtdly v
  | .depth => s.setDepth v

/-- Reset (R240, R241): every register, the RAM and the port take their reset value; the
parameters and the ROM stay. The host's later port samples stay to come; the records of the run
start anew (R253; DEDUCED, log entry 6). -/
def State.resetAll (s : State) : State :=
  { State.reset with config := s.config, inputs := s.inputs }

/-- The response is taken at an edge where `rsp_valid` and `rsp_ready` are both 1 (R80). -/
def State.deliver (s : State) (r : Response) : State :=
  (s.setRsp none).setResponses (s.responses ++ [r])

end Sys2Proof.Machine
end

