-- ==== Sys2Proof/Machine/Control.lean ====
section
/-! DEFINITION. The control commands NOP, RDREG and WRREG (spec/46_control.md). -/

namespace Sys2Proof.Machine

/-- NOP (R210): no state changes, RES is 0. -/
def execNop (s : State) : Result := .next (s.answer 0)

/-- RDREG (R211): RES is the register, all 32 bits; no side effect (R67). -/
def execRdreg (r : Reg) (s : State) : Result := .next (s.answer (s.readReg r))

/-- WRREG (R212, R34). CFG is read-only: a word that names it is refused (R86, R212), and so is the
term that stands for it (DEDUCED, safe: log entry 9). -/
def execWrreg (r : Reg) (v : Word) (s : State) : Result :=
  if r = .cfg then .next s.refuse else .next ((s.writeReg r v).answer 0)

end Sys2Proof.Machine
end

