-- ==== Sys2Proof/Machine/FastMath.lean ====
section
/-! DEFINITION. The fast-math commands U2F, F2U, POW2M1, FASTPOW and LIMIT
(spec/40_fastmath.md). -/

namespace Sys2Proof.Machine

/-- `ONE` (R102). -/
def one : Word := 0x3F800000#32
/-- `L1` = c32(ln 2) (R102). -/
def l1 : Word := 0x3F317218#32
/-- `L2` = c32((ln 2)^2 / 2) (R102). -/
def l2 : Word := 0x3E75FDF0#32
/-- `L3` = c32((ln 2)^3 / 6) (R102). -/
def l3 : Word := 0x3D635847#32
/-- `L4` = c32((ln 2)^4 / 24) (R102). -/
def l4 : Word := 0x3C1D955B#32
/-- `C19` = c32(0.19) (R102). -/
def c19 : Word := 0x3E428F5C#32
/-- `C162` = c32(0.0162) (R102). -/
def c162 : Word := 0x3C84B5DD#32

/-- The polynomial L1*x + L2*x^2 + L3*x^3 + L4*x^4 in the Horner form of R112. -/
def pow2m1 (x : Word) : Word :=
  let p3 := F32.add l3 (F32.mul x l4)
  let p2 := F32.add l2 (F32.mul x p3)
  let p1 := F32.add l1 (F32.mul x p2)
  F32.mul x p1

/-- `Limit(x)` (R114). -/
def limit (x : Word) : Word :=
  let x2 := F32.mul x x
  let t1 := F32.mul c19 x2
  let t2 := F32.sub one t1
  let t3 := F32.mul c162 x2
  let t4 := F32.mul t3 x2
  let t5 := F32.add t2 t4
  F32.mul x t5

/-- U2F (R110). -/
def execU2f (v : Word) (s : State) : Result := .next (s.answer (Operand.u2f v))

/-- F2U (R111). -/
def execF2u (v : Word) (s : State) : Result := .next (s.answer (Operand.f2u v))

/-- POW2M1 (R112). -/
def execPow2m1 (x : Word) (s : State) : Result := .next (s.answer (pow2m1 x))

/-- FASTPOW (R113): FPDOM records a call outside the domain, and the transform runs anyway. -/
def execFastpow (a b : Word) (s : State) : Result :=
  .next ((s.raiseIf (!Operand.powDomain a b) .fpdom).answer
    (Operand.fastpow s.config.fastpowK a b))

/-- LIMIT (R115). -/
def execLimit (x : Word) (s : State) : Result := .next (s.answer (limit x))

end Sys2Proof.Machine
end

