-- ==== Sys2Proof/Machine/DelayBuffer.lean ====
section
/-! DEFINITION. The circular delay buffer: DelayWrite, DelayRead, DLYWR and DLYRD
(spec/42_delay_buffer.md). -/

namespace Sys2Proof.Machine

/-- `DelayWrite(s)` (R140): the cursor advances first, and the sample goes to the new position. -/
def State.delayWrite (s : State) (sample : Word) : State :=
  let s1 := s.setCursor (s.cursor + 1)
  s1.ramWrite (s1.ramIndex s1.cursor) sample

/-- The index of the slot `a` of a read with integer part `i` (R142). -/
def State.tapIndex (s : State) (i : Word) : Nat := s.ramIndex (s.cursor - i)

/-- The index of the slot `b`, one step more recent (R142). -/
def State.nextTapIndex (s : State) (i : Word) : Nat := s.ramIndex (s.cursor - i + 1)

/-- The contract of a delay: finite and in [0, N); -0.0 counts as 0 (R142). -/
def delayInContract (c : Config) (d : Word) : Bool :=
  F32.isFinite d && decide (0 ≤ F32.units d) && F32.ltNat d c.capacity

/-- `a ⊕ ((b ⊖ a) ⊗ f)` (R142, R168). -/
def interpolate (a b f : Word) : Word := F32.add a (F32.mul (F32.sub b a) f)

/-- The value of a delay read (R142): the word at the integer part when the fraction is +0, every
bit kept, and the interpolation toward the more recent sample otherwise. -/
def State.delayValue (s : State) (d : Word) : Word :=
  let i := Operand.delayWhole d
  let f := Operand.delayFraction d
  let a := s.ramRead (s.tapIndex i)
  let b := s.ramRead (s.nextTapIndex i)
  if f = 0 then a else interpolate a b f

/-- The state after `DelayRead(d)`: ALIAS is set when the delay is out of contract, the only side
effect (R67, R142). -/
def State.delayRead (s : State) (d : Word) : State :=
  s.raiseIf (!delayInContract s.config d) .alias_

/-- DLYWR (R141). -/
def execDlywr (sample : Word) (s : State) : Result := .next ((s.delayWrite sample).answer 0)

/-- DLYRD (R143). -/
def execDlyrd (delay : Word) (s : State) : Result :=
  .next ((s.delayRead delay).answer (s.delayValue delay))

end Sys2Proof.Machine
end

