-- ==== Sys2Proof/Machine/Lfo.lean ====
section
/-! DEFINITION. The LFO: the increment setters, the phase advance and the three waveforms
(spec/43_lfo.md). -/

namespace Sys2Proof.Machine

/-- `FSCALE` = c32(2^32 / 48000) (R162). -/
def fscale : Word := 0x47AEC33E#32
/-- `PSCALE` = c32(1000) ⊗ FSCALE (R163). -/
def pscale : Word := 0x4CAAAAAB#32
/-- `C01` = c32(0.1) (R163). -/
def c01 : Word := 0x3DCCCCCD#32

/-- `SetStep(r)` (R160): only INCR changes. -/
def State.setStep (s : State) (r : Word) : State := s.setIncr (Operand.stepWord r)

/-- The period below 0.1 ms that R163 clamps. -/
def periodClamped (ms : Word) : Bool := F32.lt ms c01

/-- `SetPeriod(ms)` (R163). -/
def State.setPeriod (s : State) (ms : Word) : State :=
  let ms' := if periodClamped ms then c01 else ms
  (s.raiseIf (periodClamped ms) .perclamp).setStep (F32.div pscale ms')

/-- `PHASE <- PHASE +32 INCR` (R165). -/
def State.advancePhase (s : State) : State := s.setPhase (s.phase + s.incr)

/-- The quadrant `now >> 30` (R166). -/
def quadrant (now : Word) : Word := now >>> 30

/-- The position within the quadrant, complemented in an odd one (R166). -/
def foldedPhase (now : Word) : Word :=
  if (quadrant now).getLsbD 0 then ~~~(now <<< 2) else now <<< 2

/-- `Sign(q, m)` (R166): quadrants 2 and 3 negate the magnitude. -/
def waveSign (now m : Word) : Word := if (quadrant now).getLsbD 1 then F32.neg m else m

/-- The triangle at a phase (R167). -/
def triangle (now : Word) : Word := waveSign now (Operand.u2f (foldedPhase now))

/-- The sine's ROM index, the top QSIN_LOG2 bits of the folded phase (R168). -/
def sineIndex (c : Config) (now : Word) : Nat :=
  (foldedPhase now >>> (32 - c.qsinLog2)).toNat

/-- The sine's interpolation fraction, from the remaining low bits (R168). -/
def sineFraction (c : Config) (now : Word) : Word :=
  Operand.u2f (foldedPhase now <<< c.qsinLog2)

/-- The sine at a phase (R168). -/
def sine (c : Config) (now : Word) : Word :=
  let a := romRead c (sineIndex c now)
  let b := romRead c (sineIndex c now + 1)
  waveSign now (interpolate a b (sineFraction c now))

/-- The sawtooth at a phase (R169): in [0, 1), never folded or negated. -/
def sawtooth (now : Word) : Word := Operand.u2f now

/-- LFOSTEP.SINE (R168): the output is that of the phase before the advance (R165). -/
def execLfostepSine (s : State) : Result := .next (s.advancePhase.answer (sine s.config s.phase))

/-- LFOSTEP.TRI (R167). -/
def execLfostepTri (s : State) : Result := .next (s.advancePhase.answer (triangle s.phase))

/-- LFOSTEP.SAW (R169). -/
def execLfostepSaw (s : State) : Result := .next (s.advancePhase.answer (sawtooth s.phase))

/-- LFOSETSTEP (R161). -/
def execLfosetstep (rawStep : Word) (s : State) : Result := .next ((s.setStep rawStep).answer 0)

/-- LFOSETFREQ (R162). -/
def execLfosetfreq (hz : Word) (s : State) : Result :=
  .next ((s.setStep (F32.mul hz fscale)).answer 0)

/-- LFOSETPER (R164). -/
def execLfosetper (ms : Word) (s : State) : Result := .next ((s.setPeriod ms).answer 0)

end Sys2Proof.Machine
end

