-- ==== Sys2Proof/Machine/Smoothing.lean ====
section
/-! DEFINITION. The exponential smoother (spec/44_smoothing.md). -/

namespace Sys2Proof.Machine

/-- `RATE` = c32(0.001) (R180). -/
def smoothingRate : Word := 0x3A83126F#32

/-- CURDLY after one update (R180). -/
def smoothed (curdly tgtdly : Word) : Word :=
  let diff := F32.sub tgtdly curdly
  let step := F32.mul smoothingRate diff
  F32.add curdly step

/-- `Smooth()` (R180): only CURDLY changes. -/
def State.smooth (s : State) : State := s.setCurdly (smoothed s.curdly s.tgtdly)

/-- SMOOTH (R181). -/
def execSmooth (s : State) : Result := .next (s.smooth.answer 0)

end Sys2Proof.Machine
end

