-- ==== Sys2Proof/Machine/Echo.lean ====
section
/-! DEFINITION. The echo effect: ECHOINIT, ECHOSTEP and ECHOSAMPLE (spec/45_echo.md). -/

namespace Sys2Proof.Machine

/-- `C1000` = 1000.0 (R191). -/
def c1000 : Word := 0x447A0000#32
/-- `C48` = 48.0 = SAMPLE_RATE / 1000 (R191, R7). -/
def c48 : Word := 0x42400000#32
/-- `C4` = 4.0 (R192). -/
def c4 : Word := 0x40800000#32
/-- `HALF` = 0.5 (R195). -/
def half : Word := 0x3F000000#32

/-- The delay target in samples, with its two roundings (R191). -/
def targetSamples (p1 : Word) : Word := F32.mul (F32.mul p1 c1000) c48

/-- The acceptance test 0 < smp < N of R191; NaN fails both comparisons. -/
def targetInRange (c : Config) (smp : Word) : Bool := F32.lt 0 smp && F32.ltNat smp c.capacity

/-- `EchoSetTarget(p1)` (R191): a target out of range is ignored, not clamped. -/
def State.echoSetTarget (s : State) (p1 : Word) : State :=
  if targetInRange s.config (targetSamples p1) then s.setTgtdly (targetSamples p1)
  else s.raise .tgtign

/-- `EchoInit(p1, p2, p3, p4)` (R190, R192 to R194); `p2` is not used. -/
def State.echoInit (s : State) (p1 p3 p4 : Word) : State :=
  ((((s.echoSetTarget p1).setPeriod (F32.mul p3 c4)).setFeedback p4).raise .initd)

/-- The tap `d` of an echo step (R195). -/
def State.echoTap (s : State) : Word := F32.add one s.curdly

/-- The word an echo step writes into the delay RAM (R195). -/
def State.echoWritten (s : State) (x : Word) : Word :=
  limit (F32.add x (F32.mul (s.delayValue s.echoTap) s.feedback))

/-- The output of an echo step (R195). -/
def State.echoOutput (s : State) (x : Word) : Word :=
  F32.mul (F32.add x (s.delayValue s.echoTap)) half

/-- The state after `EchoStep(in)` (R195): the read at the tap comes before the write (R196). -/
def State.echoStep (s : State) (x : Word) : State :=
  (s.delayRead s.echoTap).delayWrite (s.echoWritten x)

/-- ECHOINIT (R190). -/
def execEchoinit (p1 _p2 p3 p4 : Word) (s : State) : Result :=
  .next ((s.echoInit p1 p3 p4).answer 0)

/-- ECHOSTEP (R195). -/
def execEchostep (x : Word) (s : State) : Result :=
  .next ((s.echoStep x).answer (s.echoOutput x))

/-- ECHOSAMPLE (R197): the smoothing update, then the echo step on its result. -/
def execEchosample (x : Word) (s : State) : Result :=
  .next ((s.smooth.echoStep x).answer (s.smooth.echoOutput x))

end Sys2Proof.Machine
end

