-- ==== Sys2Proof/Machine/SineTable.lean ====
section
/-! DEFINITION. The read of the quarter-sine ROM, QSIN (spec/41_sine_table.md). -/

namespace Sys2Proof.Machine

/-- QSIN (R131): refused when the index is above STEPS. -/
def execQsin (index : Word) (s : State) : Result :=
  if s.config.steps < Operand.u32 index then .next s.refuse
  else .next (s.answer (romRead s.config (Operand.u32 index)))

end Sys2Proof.Machine
end

