-- ==== Sys2Proof/Machine/Dispatch.lean ====
section
/-! DEFINITION. One arm per constructor of Instr: each calls that command's meaning. -/

namespace Sys2Proof.Machine

def exec (i : Instr) (s : State) : Host.Outcome State Fault Refusal :=
  match i with
  | .nop => Sys2Proof.Machine.execNop s
  | .rdreg r => Sys2Proof.Machine.execRdreg r s
  | .wrreg r value => Sys2Proof.Machine.execWrreg r value s
  | .u2f v => Sys2Proof.Machine.execU2f v s
  | .f2u v => Sys2Proof.Machine.execF2u v s
  | .pow2m1 x => Sys2Proof.Machine.execPow2m1 x s
  | .fastpow a b => Sys2Proof.Machine.execFastpow a b s
  | .limit x => Sys2Proof.Machine.execLimit x s
  | .qsin index => Sys2Proof.Machine.execQsin index s
  | .dlywr sample => Sys2Proof.Machine.execDlywr sample s
  | .dlyrd delay => Sys2Proof.Machine.execDlyrd delay s
  | .lfostepSine => Sys2Proof.Machine.execLfostepSine s
  | .lfostepTri => Sys2Proof.Machine.execLfostepTri s
  | .lfostepSaw => Sys2Proof.Machine.execLfostepSaw s
  | .lfosetstep rawStep => Sys2Proof.Machine.execLfosetstep rawStep s
  | .lfosetfreq hz => Sys2Proof.Machine.execLfosetfreq hz s
  | .lfosetper ms => Sys2Proof.Machine.execLfosetper ms s
  | .smooth => Sys2Proof.Machine.execSmooth s
  | .echoinit p1 p2 p3 p4 => Sys2Proof.Machine.execEchoinit p1 p2 p3 p4 s
  | .echostep x => Sys2Proof.Machine.execEchostep x s
  | .echosample x => Sys2Proof.Machine.execEchosample x s

end Sys2Proof.Machine
end

