-- ==== Sys2Proof/Machine/Port.lean ====
section
/-! DEFINITION. The command port at one rising edge of `clk` (spec/30_encoding.md R80,
spec/70_reset_and_hazards.md R241, R242). -/

namespace Sys2Proof.Machine

/-- One accepted command (R80): the decoded command runs, and a reserved word is refused (R93,
R220). -/
def runCommand (c : Command) (s : State) : Result :=
  match decode c with
  | .ok i => exec i s
  | .error _ => .next s.refuse

/-- One edge (R80, R241). With `rst` the core resets, whatever else the host drives. Otherwise a
held response is delivered when `rsp_ready` is 1, and no command is accepted while one is held;
with none held, `cmd_ready` is 1 and a presented command is accepted. -/
def State.edge (s : State) (e : PortInput) : Result :=
  if e.rst then .next s.resetAll
  else
    match s.rsp, e.cmd with
    | some r, _ => if e.rspReady then .next (s.deliver r) else .next s
    | none, some c => runCommand c s
    | none, none => .next s

/-- The edge at which the host presents a command and nothing else. -/
def PortInput.present (c : Command) : PortInput := ⟨false, some c, false⟩

end Sys2Proof.Machine
end

