-- ==== Sys2Proof/Machine/Step.lean ====
section
/-! DEFINITION. One step of the machine: the next port sample of the host. -/

namespace Sys2Proof.Machine

/-- The next port sample is used (R80). With none left the core is idle and keeps all its state
(R232, R253; log entry 4). -/
def step (s : State) : Host.Outcome State Fault Refusal :=
  match s.inputs with
  | [] => .next s
  | e :: rest => (s.setInputs rest).edge e

/-- The port is idle and the host's next sample presents the command whose first `nbits` bits are
`w`, every higher bit being zero: the next step accepts and runs it (log entry 1). -/
def State.withFetchWord (s : State) (nbits w : Nat) : State :=
  (s.setRsp none).setInputs (PortInput.present (Command.ofNat (w % 2 ^ nbits)) :: s.inputs)

end Sys2Proof.Machine
end

