-- ==== Sys2Proof/Machine/Script.lean ====
section
/-! DEFINITION. The host's command scripts: literals, pseudo-commands and script lines
(spec/30_encoding.md R94, R95). The assembler is the host's; nothing of the core calls it. What R94
leaves open of the text is chosen here (DESIGN CHOICE, safe: log entry 14). -/

namespace Sys2Proof.Machine

/-- A data operand of a script line (R94). -/
inductive Literal where
  /-- `0xHHHHHHHH`, taken as the 32 bits. -/
  | hex (w : Word)
  /-- An unsigned decimal integer with suffix `u`, taken as u32. -/
  | unsigned (n : Nat)
  /-- A decimal number, `digits * 10^scale` with a sign. -/
  | decimal (neg : Bool) (digits : Nat) (scale : Int)
  /-- `+inf`. -/
  | posInf
  /-- `-inf`. -/
  | negInf
  /-- `nan`. -/
  | nan
deriving DecidableEq, Repr

/-- The operand word of a literal (R94): a decimal number is its `c32`, `-0.0` is 0x80000000. -/
def Literal.word : Literal → Word
  | .hex w => w
  | .unsigned n => BitVec.ofNat 32 n
  | .decimal neg digits (.ofNat k) => F32.c32 neg (digits * 10 ^ k) 1
  | .decimal neg digits (.negSucc k) => F32.c32 neg digits (10 ^ (k + 1))
  | .posInf => F32.inf false
  | .negInf => F32.inf true
  | .nan => F32.canonicalNaN

/-- The pseudo-commands of R95. -/
inductive Pseudo where
  | clrstat
  | rdstat
  | setcur (v : Word)
  | settgt (v : Word)
  | setfb (v : Word)
  | process (x : Word)
deriving DecidableEq, Repr

/-- The one command a pseudo-command stands for (R95). -/
def Pseudo.expand : Pseudo → Instr
  | .clrstat => .wrreg .status 0x0000001F#32
  | .rdstat => .rdreg .status
  | .setcur v => .wrreg .curdly v
  | .settgt v => .wrreg .tgtdly v
  | .setfb v => .wrreg .feedback v
  | .process x => .echosample x

/-- The pieces of a text between the characters `c`. -/
def splitAtChar (c : Char) : List Char → List (List Char)
  | [] => [[]]
  | x :: xs =>
    if x = c then [] :: splitAtChar c xs
    else
      match splitAtChar c xs with
      | [] => [[x]]
      | p :: ps => (x :: p) :: ps

/-- Space or tab. -/
def isBlank (c : Char) : Bool := c = ' ' || c = '\t'

/-- A text without the blanks at its ends. -/
def trim (t : List Char) : List Char := ((t.dropWhile isBlank).reverse.dropWhile isBlank).reverse

/-- The value of a decimal digit. -/
def digit (c : Char) : Option Nat :=
  if '0' ≤ c ∧ c ≤ '9' then some (c.toNat - '0'.toNat) else none

/-- The value of a hexadecimal digit. -/
def hexDigit (c : Char) : Option Nat :=
  if 'A' ≤ c ∧ c ≤ 'F' then some (c.toNat - 'A'.toNat + 10)
  else if 'a' ≤ c ∧ c ≤ 'f' then some (c.toNat - 'a'.toNat + 10)
  else digit c

/-- The number a text of digits writes, after the digits already read. -/
def readDigits (base : Nat) (value : Char → Option Nat) : Nat → List Char → Option Nat
  | acc, [] => some acc
  | acc, c :: cs =>
    match value c with
    | some d => readDigits base value (acc * base + d) cs
    | none => none

/-- A text of at least one digit. -/
def readNumber (base : Nat) (value : Char → Option Nat) (t : List Char) : Option Nat :=
  if t = [] then none else readDigits base value 0 t

/-- An exponent: an optional sign and decimal digits. -/
def readExponent : List Char → Option Int
  | '-' :: t => (readNumber 10 digit t).map fun n => -(n : Int)
  | '+' :: t => (readNumber 10 digit t).map Int.ofNat
  | t => (readNumber 10 digit t).map Int.ofNat

/-- A mantissa: digits, or digits with a point among them; its digits and how many follow the
point. A digit stands on both sides of a point, so `.5` and `5.` are not assembled (R94 leaves it
open; DESIGN CHOICE, safe: log entry 14). -/
def readMantissa (t : List Char) : Option (Nat × Nat) :=
  match splitAtChar '.' t with
  | [w] => (readNumber 10 digit w).map fun n => (n, 0)
  | [w, f] =>
    match readNumber 10 digit w, readNumber 10 digit f with
    | some _, some _ => (readNumber 10 digit (w ++ f)).map fun n => (n, f.length)
    | _, _ => none
  | _ => none

/-- An unsigned decimal number with a point or an exponent (R94). A finite number takes no leading
`+`, so `+0.5` is not assembled (R94 leaves it open; DESIGN CHOICE, safe: log entry 14). -/
def readDecimal (neg : Bool) (t : List Char) : Option Literal :=
  match splitAtChar 'e' (t.map fun c => if c = 'E' then 'e' else c) with
  | [m] =>
    if m.contains '.' then
      (readMantissa m).map fun p => .decimal neg p.1 (-(p.2 : Int))
    else none
  | [m, e] =>
    match readMantissa m, readExponent e with
    | some p, some x => some (.decimal neg p.1 (x - p.2))
    | _, _ => none
  | _ => none

/-- A data operand (R94). -/
def readLiteral : List Char → Option Literal
  | ['+', 'i', 'n', 'f'] => some .posInf
  | ['-', 'i', 'n', 'f'] => some .negInf
  | ['n', 'a', 'n'] => some .nan
  | ['0'] => some (.hex 0)
  | '0' :: 'x' :: t =>
    if t.length = 8 then (readNumber 16 hexDigit t).map fun n => .hex (BitVec.ofNat 32 n) else none
  | '-' :: t => readDecimal true t
  | t =>
    match t.reverse with
    | 'u' :: r =>
      match readNumber 10 digit r.reverse with
      | some n => if n < 2 ^ 32 then some (.unsigned n) else none
      | none => none
    | _ => readDecimal false t

/-- The words of the data operands of a line; `none` when one of them is no literal. -/
def readOperands : List (List Char) → Option (List Word)
  | [] => some []
  | t :: ts =>
    match readLiteral (trim t), readOperands ts with
    | some l, some ws => some (l.word :: ws)
    | _, _ => none

/-- The register names of R31. -/
def registerNames : List (List Char × Reg) :=
  [("CFG".toList, .cfg), ("STATUS".toList, .status), ("CURSOR".toList, .cursor),
   ("PHASE".toList, .phase), ("INCR".toList, .incr), ("FEEDBACK".toList, .feedback),
   ("CURDLY".toList, .curdly), ("TGTDLY".toList, .tgtdly), ("DEPTH".toList, .depth)]

/-- The command words of the mnemonics that take data operands only (R84). -/
def plainMnemonics : List (List Char × Word) :=
  [("NOP".toList, 0x00000000#32), ("U2F".toList, 0x00000010#32), ("F2U".toList, 0x00000011#32),
   ("POW2M1".toList, 0x00000012#32), ("FASTPOW".toList, 0x00000013#32),
   ("LIMIT".toList, 0x00000014#32), ("QSIN".toList, 0x00000018#32),
   ("DLYWR".toList, 0x00000020#32), ("DLYRD".toList, 0x00000021#32),
   ("LFOSTEP.SINE".toList, 0x00000030#32), ("LFOSTEP.TRI".toList, 0x00000130#32),
   ("LFOSTEP.SAW".toList, 0x00000230#32), ("LFOSETSTEP".toList, 0x00000031#32),
   ("LFOSETFREQ".toList, 0x00000032#32), ("LFOSETPER".toList, 0x00000033#32),
   ("SMOOTH".toList, 0x00000040#32), ("ECHOINIT".toList, 0x00000041#32),
   ("ECHOSTEP".toList, 0x00000042#32), ("ECHOSAMPLE".toList, 0x00000043#32)]

/-- The entry of a table under a name. -/
def lookupName {α : Type} (name : List Char) : List (List Char × α) → Option α
  | [] => none
  | (n, v) :: rest => if n = name then some v else lookupName name rest

/-- A command word with its operand words, the omitted trailing ones 0 (R94). -/
def withOperands (cmd : Word) : List Word → Option Command
  | [] => some ⟨cmd, 0, 0, 0, 0⟩
  | [a] => some ⟨cmd, a, 0, 0, 0⟩
  | [a, b] => some ⟨cmd, a, b, 0, 0⟩
  | [a, b, c] => some ⟨cmd, a, b, c, 0⟩
  | [a, b, c, d] => some ⟨cmd, a, b, c, d⟩
  | _ => none

/-- The pseudo-command of a name and its operand words (R95). -/
def readPseudo (name : List Char) (ws : List Word) : Option Pseudo :=
  if name = "CLRSTAT".toList then if ws = [] then some .clrstat else none
  else if name = "RDSTAT".toList then if ws = [] then some .rdstat else none
  else
    match ws with
    | [v] =>
      if name = "SETCUR".toList then some (.setcur v)
      else if name = "SETTGT".toList then some (.settgt v)
      else if name = "SETFB".toList then some (.setfb v)
      else if name = "PROCESS".toList then some (.process v)
      else none
    | _ => none

/-- The command of a mnemonic and its operand texts (R94, R95). -/
def assemble (name : List Char) (ops : List (List Char)) : Option Command :=
  if name = "RDREG".toList then
    match ops with
    | [r] => (lookupName (trim r) registerNames).map fun r => encode (.rdreg r)
    | _ => none
  else if name = "WRREG".toList then
    match ops with
    | [r, v] =>
      match lookupName (trim r) registerNames, readLiteral (trim v) with
      | some .cfg, _ => none
      | some r, some l => some (encode (.wrreg r l.word))
      | _, _ => none
    | _ => none
  else
    match readOperands ops with
    | none => none
    | some ws =>
      match lookupName name plainMnemonics with
      | some cmd => withOperands cmd ws
      | none => (readPseudo name ws).map fun p => encode p.expand

/-- The text of a line before its comment. -/
def withoutComment (line : List Char) : List Char := trim (line.takeWhile (· != ';'))

/-- The operand texts after a mnemonic. -/
def operandTexts (t : List Char) : List (List Char) :=
  if trim t = [] then [] else splitAtChar ',' t

/-- One line of a script (R94): `some none` for a line with no command, `none` for a line that is
not one of the script's. -/
def assembleLine (line : List Char) : Option (Option Command) :=
  let t := withoutComment line
  if t = [] then some none
  else
    (assemble (t.takeWhile fun c => !isBlank c)
      (operandTexts (t.dropWhile fun c => !isBlank c))).map some

end Sys2Proof.Machine
end

