-- ==== Sys2Proof/Safety.lean ====
section
/-! DEFINITION. The terms claims use: the invariant of the state, what a command leaves unchanged,
sequences of commands, and runs with no refusal. -/

namespace Sys2Proof.Machine

/-- What holds of every state a run reaches: the RAM is in canonical form and lists indices 0 to
N-1 only (R42), and the reserved bits of STATUS are 0 (R33). -/
def State.inv (s : State) : Bool :=
  Memory.wf s.ram && Memory.within s.config.capacity s.ram &&
    decide (s.status &&& ~~~definedBits = 0)

/-- `t` differs from `s` in the listed registers, the delay RAM, the port's response and the
refusal mark at most. -/
def KeepsRegistersBut (changed : List Reg) (s t : State) : Prop :=
  (∀ r, r ∉ changed → t.readReg r = s.readReg r) ∧ t.config = s.config ∧
    t.inputs = s.inputs ∧ t.responses = s.responses

/-- Every word of the delay RAM reads as before. -/
def SameRam (s t : State) : Prop := ∀ i, t.ramRead i = s.ramRead i

/-- The delay RAM reads as before but for one word. -/
def RamWithWord (i : Nat) (v : Word) (s t : State) : Prop :=
  ∀ j, t.ramRead j = if j = i then v else s.ramRead j

/-- The command completed: exec answers the next state `t`, RESP is OK with `res`, and the run-wide
refusal mark is as before. -/
def Completes (i : Instr) (s t : State) (res : Word) : Prop :=
  exec i s = .next t ∧ t.rsp = some ⟨.ok, res⟩ ∧ t.refusalMark = s.refusalMark

/-- What a refusal leaves (R220): ILLCMD set, RESP = ILLEGAL with result 0, the run-wide mark, and
nothing else changed. -/
def RefusedFrom (s t : State) : Prop :=
  t.rsp = some ⟨.illegal, 0⟩ ∧ t.status = s.status ||| 0x00000010#32 ∧ t.refusalMark = true ∧
    KeepsRegistersBut [.status] s t ∧ SameRam s t

/-- The commands that may change a register, by R33 to R41; a refused command changes STATUS too. -/
def mayWrite : Reg → Instr → Bool
  | .cfg, _ => false
  | .status, .wrreg _ _ | .status, .fastpow _ _ | .status, .qsin _ | .status, .dlyrd _
  | .status, .lfosetper _ | .status, .echoinit _ _ _ _ | .status, .echostep _
  | .status, .echosample _ => true
  | .cursor, .dlywr _ | .cursor, .echostep _ | .cursor, .echosample _ => true
  | .cursor, .wrreg .cursor _ => true
  | .phase, .lfostepSine | .phase, .lfostepTri | .phase, .lfostepSaw => true
  | .phase, .wrreg .phase _ => true
  | .incr, .lfosetstep _ | .incr, .lfosetfreq _ | .incr, .lfosetper _
  | .incr, .echoinit _ _ _ _ => true
  | .incr, .wrreg .incr _ => true
  | .feedback, .echoinit _ _ _ _ | .feedback, .wrreg .feedback _ => true
  | .curdly, .smooth | .curdly, .echosample _ | .curdly, .wrreg .curdly _ => true
  | .tgtdly, .echoinit _ _ _ _ | .tgtdly, .wrreg .tgtdly _ => true
  | .depth, .wrreg .depth _ => true
  | _, _ => false

/-- The commands that may change the delay RAM (R42): those that run DelayWrite. -/
def mayWriteRam : Instr → Bool
  | .dlywr _ | .echostep _ | .echosample _ => true
  | _ => false

/-- The LFOSTEP commands (R165). -/
def isLfoStep : Instr → Bool
  | .lfostepSine | .lfostepTri | .lfostepSaw => true
  | _ => false

/-- Commands one after another, each run on the state the one before it left (R70). -/
def execAll : List Instr → State → Result
  | [], s => .next s
  | i :: is, s =>
    match exec i s with
    | .next t => execAll is t
    | .fault f => .fault f
    | .refused r => .refused r

/-- No command was refused since reset (R220, R253). -/
def State.cleanRun (s : State) : Bool := !s.refusalMark

end Sys2Proof.Machine
end

