-- ==== Sys2Proof/Certificates/Slice0/Obligations.lean ====
section
/-! DEFINITION. What is claimed of the machine, one `def Obligations.<Name> : Prop` per statement. -/

open Sys2Proof Sys2Proof.Machine

/- ### Command words -/

/-- Decoding an encoded command gives it back, with every operand at every value (R82 to R86). -/
def Obligations.DecodeOfEncodeIsIdentity : Prop :=
  ∀ i : Instr, i.wf = true → decode (encode i) = .ok i

/-- A decoded term is well formed and its encoding has the command word it came from, so no two
command words have one meaning (R86). -/
def Obligations.EncodeOfDecodeKeepsCommandWord : Prop :=
  ∀ (c : Command) (i : Instr), decode c = .ok i →
    i.wf = true ∧ (encode i).cmd = c.cmd ∧ decode (encode i) = .ok i

/-- The decoder accepts exactly the words R86 lists, written in arithmetic on the word. -/
def Obligations.DecoderAcceptsExactlyTheListedWords : Prop :=
  ∀ c : Command, (∃ i, decode c = .ok i) ↔
    (c.cmd.toNat < 2 ^ 16 ∧
      ((c.cmd.toNat % 256 = 0x01 ∧ c.cmd.toNat / 256 ≤ 8) ∨
        (c.cmd.toNat % 256 = 0x02 ∧ 1 ≤ c.cmd.toNat / 256 ∧ c.cmd.toNat / 256 ≤ 8) ∨
        (c.cmd.toNat % 256 = 0x30 ∧ c.cmd.toNat / 256 ≤ 2) ∨
        c.cmd.toNat ∈ [0x00, 0x10, 0x11, 0x12, 0x13, 0x14, 0x18, 0x20, 0x21, 0x31, 0x32, 0x33,
          0x40, 0x41, 0x42, 0x43]))

/-- A command reads only the operands R85 lists: the others may hold anything (R81). -/
def Obligations.UnlistedOperandsAreIgnored : Prop :=
  (∀ w a b c d b' c' d' : Word, fieldOp w ≠ 0x13 → fieldOp w ≠ 0x41 →
    decode ⟨w, a, b, c, d⟩ = decode ⟨w, a, b', c', d'⟩) ∧
  (∀ w a b c d a' b' c' d' : Word, fieldOp w ∈ [0x00, 0x01, 0x30, 0x40] →
    decode ⟨w, a, b, c, d⟩ = decode ⟨w, a', b', c', d'⟩) ∧
  (∀ w a b c d c' d' : Word, fieldOp w = 0x13 →
    decode ⟨w, a, b, c, d⟩ = decode ⟨w, a, b, c', d'⟩) ∧
  ∀ (p1 p2 p2' p3 p4 : Word) (s : State),
    exec (.echoinit p1 p2 p3 p4) s = exec (.echoinit p1 p2' p3 p4) s

/-- Words written out from R82 and R84 decode to the commands they stand for. -/
def Obligations.WrittenOutWordsDecode : Prop :=
  ∀ a b c d : Word,
    decode ⟨0x00000601#32, a, b, c, d⟩ = .ok (.rdreg .curdly) ∧
    decode ⟨0x00000202#32, a, b, c, d⟩ = .ok (.wrreg .cursor a) ∧
    decode ⟨0x00000013#32, a, b, c, d⟩ = .ok (.fastpow a b) ∧
    decode ⟨0x00000018#32, a, b, c, d⟩ = .ok (.qsin a) ∧
    decode ⟨0x00000021#32, a, b, c, d⟩ = .ok (.dlyrd a) ∧
    decode ⟨0x00000130#32, a, b, c, d⟩ = .ok .lfostepTri ∧
    decode ⟨0x00000040#32, a, b, c, d⟩ = .ok .smooth ∧
    decode ⟨0x00000041#32, a, b, c, d⟩ = .ok (.echoinit a b c d)

/-- The assembler accepts each pseudo-command of R95, with any literal for its operand, and emits
the one command word of its expansion. -/
def Obligations.PseudoCommandsAssembleToOneCommand : Prop :=
  assemble "CLRSTAT".toList [] = some ⟨0x00000102#32, 0x0000001F#32, 0, 0, 0⟩ ∧
  assemble "RDSTAT".toList [] = some ⟨0x00000101#32, 0, 0, 0, 0⟩ ∧
  ∀ (t : List Char) (l : Literal), readLiteral (trim t) = some l →
    assemble "SETCUR".toList [t] = some ⟨0x00000602#32, l.word, 0, 0, 0⟩ ∧
    assemble "SETTGT".toList [t] = some ⟨0x00000702#32, l.word, 0, 0, 0⟩ ∧
    assemble "SETFB".toList [t] = some ⟨0x00000502#32, l.word, 0, 0, 0⟩ ∧
    assemble "PROCESS".toList [t] = some ⟨0x00000043#32, l.word, 0, 0, 0⟩ ∧
    ∀ v : Word, decode ⟨0x00000102#32, v, 0, 0, 0⟩ = .ok (.wrreg .status v) ∧
      decode ⟨0x00000101#32, v, 0, 0, 0⟩ = .ok (.rdreg .status) ∧
      decode ⟨0x00000602#32, v, 0, 0, 0⟩ = .ok (.wrreg .curdly v) ∧
      decode ⟨0x00000702#32, v, 0, 0, 0⟩ = .ok (.wrreg .tgtdly v) ∧
      decode ⟨0x00000502#32, v, 0, 0, 0⟩ = .ok (.wrreg .feedback v) ∧
      decode ⟨0x00000043#32, v, 0, 0, 0⟩ = .ok (.echosample v)

/- ### The port, reset and refusal -/

/-- An accepted command that decodes to `i` is run by the step: exec of `i` on the state whose
port sample has been used (R80; that the host's port samples stand as a list in the state is the
model's choice, log entry 1). -/
def Obligations.StepRunsDecodedCommand : Prop :=
  ∀ (s : State) (e : PortInput) (rest : List PortInput) (c : Command) (i : Instr),
    s.inputs = e :: rest → e.rst = false → e.cmd = some c → s.rsp = none → decode c = .ok i →
    i.wf = true ∧ step s = exec i (s.setInputs rest)

/-- While a response is held no command is accepted; it stays constant until an edge with
`rsp_ready`, which delivers it and raises `cmd_ready` (R80; the list of port samples and the record
of responses are the model's, log entries 1 and 6). -/
def Obligations.ResponseIsHeldUntilTaken : Prop :=
  ∀ (s : State) (e : PortInput) (rest : List PortInput) (r : Response),
    s.inputs = e :: rest → e.rst = false → s.rsp = some r →
    ∃ t, step s = .next t ∧ t.inputs = rest ∧ (∀ q, t.readReg q = s.readReg q) ∧ SameRam s t ∧
      t.config = s.config ∧ t.refusalMark = s.refusalMark ∧
      (e.rspReady = false → t.rsp = some r ∧ t.cmdReady = false ∧ t.responses = s.responses) ∧
      (e.rspReady = true → t.rsp = none ∧ t.cmdReady = true ∧ t.responses = s.responses ++ [r])

/-- An edge with `rst` gives the state of R240 from any state; a held response is discarded and not
delivered (R242); State.reset is that state with the default parameters, whose CFG reads 0x00000910.
That the edges of the port are the steps is the model's form (log entry 1). That `cmd_ready` is 1
right after the edge, and that the record of delivered responses starts anew, is the model's reading
of R241 and R242 (log entry 6). -/
def Obligations.ResetGivesTheResetState : Prop :=
  (∀ (s : State) (e : PortInput) (rest : List PortInput), s.inputs = e :: rest → e.rst = true →
    ∃ t, step s = .next t ∧ t.config = s.config ∧ t.readReg .cfg = s.readReg .cfg ∧
      (∀ r, r ≠ .cfg → t.readReg r = 0) ∧ (∀ i, t.ramRead i = 0) ∧
      t.rsp = none ∧ t.cmdReady = true ∧ t.responses = []) ∧
  State.reset.readReg .cfg = 0x00000910#32 ∧
  (∀ r, r ≠ .cfg → State.reset.readReg r = 0) ∧ (∀ i, State.reset.ramRead i = 0) ∧
  State.reset.config.sineRom = defaultSineRom ∧
  State.reset.rsp = none ∧ State.reset.cmdReady = true

/-- A reserved command word, and a QSIN index above STEPS, are refused with no other effect
(R220). -/
def Obligations.RefusalOnlySetsIllcmd : Prop :=
  (∀ (c : Command) (s : State) (e : Reserved), decode c = .error e →
    ∃ t, runCommand c s = .next t ∧ RefusedFrom s t) ∧
  ∀ (index : Word) (s : State), s.config.steps < index.toNat →
    ∃ t, exec (.qsin index) s = .next t ∧ RefusedFrom s t

/-- No command and no port sample stops the core: every one gives a next state (R221, R225; that a
step with no port sample left keeps the state is the model's choice, log entry 4). -/
def Obligations.NothingStopsTheCore : Prop :=
  (∀ (i : Instr) (s : State), ∃ t, exec i s = .next t) ∧ ∀ s : State, ∃ t, step s = .next t

/-- The refusal mark of a run stays set until reset (R220; that reset starts a new run is the
model's reading, log entry 6). -/
def Obligations.RefusalMarkLastsUntilReset : Prop :=
  ∀ (s t : State), step s = .next t → s.refusalMark = true →
    (∀ e ∈ s.inputs.head?, e.rst = false) → t.refusalMark = true

/- ### Whole-machine rules -/

/-- Every step keeps the RAM's indices in range (R42, R62) and the reserved STATUS bits 0 (R33). It
also keeps the RAM list in canonical form, which is the model's representation and no rule of the
spec (log entry 3). -/
def Obligations.StepKeepsInvariant : Prop :=
  ∀ s t : State, s.inv = true → step s = .next t → t.inv = true

/-- The reset state meets the invariant: RAM indices in range (R42), reserved STATUS bits 0 (R33,
R240), and the RAM list in the canonical form that is the model's representation (log entry 3). -/
def Obligations.ResetMeetsInvariant : Prop := State.reset.inv = true

/-- No command but WRREG STATUS clears a flag, and none clears INITD (R33, R34). -/
def Obligations.FlagsAreSticky : Prop :=
  ∀ (i : Instr) (s t : State), exec i s = .next t →
    ((∀ v, i ≠ .wrreg .status v) → ∀ f, s.flag f = true → t.flag f = true) ∧
    (s.flag .initd = true → t.flag .initd = true)

/-- A register changes only by the commands that R33 to R41 name for it, the delay RAM only by
those that run DelayWrite (R42), and the parameters and the ROM by none (R32, R43). -/
def Obligations.OnlyNamedCommandsWrite : Prop :=
  ∀ (i : Instr) (s t : State), exec i s = .next t →
    (∀ r, mayWrite r i = false → t.readReg r = s.readReg r) ∧
    (mayWriteRam i = false → t.ram = s.ram) ∧ t.config = s.config

/-- No flag changes a result: two runs of a command that differ in STATUS alone agree in
everything but STATUS and, for RDREG STATUS, the response (R33). -/
def Obligations.FlagsChangeNoResult : Prop :=
  ∀ (i : Instr) (s t t' : State) (v : Word),
    exec i s = .next t → exec i (s.setStatus v) = .next t' →
    (i ≠ .rdreg .status → t'.rsp = t.rsp) ∧ t' = (t.setStatus t'.status).setRsp t'.rsp

/-- DEPTH is read by RDREG DEPTH alone: two runs that differ in DEPTH agree in everything else
(R41). -/
def Obligations.DepthInfluencesNothing : Prop :=
  ∀ (i : Instr) (s t t' : State) (v : Word),
    exec i s = .next t → exec i (s.setDepth v) = .next t' →
    (i ≠ .rdreg .depth → t'.rsp = t.rsp) ∧ t' = (t.setDepth t'.depth).setRsp t'.rsp

/-- CFG reports the two size parameters in the fields of R32, its other bits 0, and no step
changes it. -/
def Obligations.CfgReportsTheSizeParameters : Prop :=
  (∀ s : State, (s.readReg .cfg).toNat % 2 ^ 5 = s.config.delayLog2 ∧
    (s.readReg .cfg).toNat / 2 ^ 5 % 2 ^ 3 = 0 ∧
    (s.readReg .cfg).toNat / 2 ^ 8 % 2 ^ 5 = s.config.qsinLog2 ∧
    (s.readReg .cfg).toNat / 2 ^ 13 = 0) ∧
  State.reset.readReg .cfg = 0x00000910#32 ∧
  ∀ s t : State, step s = .next t → t.readReg .cfg = s.readReg .cfg

/- ### Control commands -/

/-- NOP answers 0 and changes no state (R210). -/
def Obligations.NopChangesNothing : Prop :=
  ∀ s : State, ∃ t, Completes .nop s t 0 ∧ KeepsRegistersBut [] s t ∧ SameRam s t

/-- RDREG answers the register, every bit, and changes nothing (R211). -/
def Obligations.RdregAnswersTheRegister : Prop :=
  ∀ (r : Reg) (s : State), ∃ t, Completes (.rdreg r) s t (s.readReg r) ∧
    KeepsRegistersBut [] s t ∧ SameRam s t

/-- WRREG writes every bit of the named register and no other register; WRREG STATUS clears the
flags 4:0 that the operand names; a write of CFG is refused (R212, R34; that the ill-formed term
`wrreg .cfg` is refused as its command word is, is the model's, log entry 9). -/
def Obligations.WrregWritesTheNamedRegister : Prop :=
  (∀ (r : Reg) (v : Word) (s : State), r ≠ .cfg →
    ∃ t, Completes (.wrreg r v) s t 0 ∧ KeepsRegistersBut [r] s t ∧ SameRam s t ∧
      (r ≠ .status → t.readReg r = v) ∧
      (r = .status → ∀ k, t.status.getLsbD k =
        if k < 5 then s.status.getLsbD k && !v.getLsbD k else s.status.getLsbD k)) ∧
  ∀ (v : Word) (s : State), ∃ t, exec (.wrreg .cfg v) s = .next t ∧ RefusedFrom s t

/-- WRREG STATUS clears exactly the flags 4:0 that the operand names and leaves bits 31:5, so the
operand's bits 31:5 have no effect; no command clears INITD (R34). -/
def Obligations.StatusWriteClearsOnlyNamedFlags : Prop :=
  (∀ (v : Word) (s : State), ∃ t, Completes (.wrreg .status v) s t 0 ∧
    (∀ k, k < 5 → t.status.getLsbD k = (s.status.getLsbD k && !v.getLsbD k)) ∧
    (∀ k, 5 ≤ k → t.status.getLsbD k = s.status.getLsbD k)) ∧
  (∀ (v v' : Word) (s : State), v.toNat % 2 ^ 5 = v'.toNat % 2 ^ 5 →
    exec (.wrreg .status v) s = exec (.wrreg .status v') s) ∧
  ∀ (i : Instr) (s t : State), exec i s = .next t → s.flag .initd = true → t.flag .initd = true

/- ### Binary32 arithmetic -/

/-- RNE gives the nearest datum, ties to the even fraction, and infinity from 2^128 - 2^103 on;
RTZ gives the datum of greatest magnitude not above, with the sign of `q` (R11). -/
def Obligations.RoundingGivesTheNearestDatum : Prop :=
  ∀ q : ℚ, q ≠ 0 →
    (|q| < 2 ^ 128 - 2 ^ 103 → F32.isFinite (F32.roundNearest q) = true ∧
      ∀ y, F32.isFinite y = true →
        |q - F32.val (F32.roundNearest q)| ≤ |q - F32.val y| ∧
        (|q - F32.val y| = |q - F32.val (F32.roundNearest q)| →
          F32.val y ≠ F32.val (F32.roundNearest q) →
          F32.frac (F32.roundNearest q) % 2 = 0)) ∧
    (2 ^ 128 - 2 ^ 103 ≤ |q| → F32.roundNearest q = F32.inf (decide (q < 0))) ∧
    (F32.isFinite (F32.roundTowardZero q) = true ∧
      F32.sign (F32.roundTowardZero q) = decide (q < 0) ∧
      |F32.val (F32.roundTowardZero q)| ≤ |q| ∧
      ∀ y, F32.isFinite y = true → |F32.val y| ≤ |q| →
        |F32.val y| ≤ |F32.val (F32.roundTowardZero q)|)

/-- On finite operands each operation is its exact rational result rounded once (R12; a result that
rounds to zero keeps the sign of the exact result, the model's reading of R11, log entry 15). -/
def Obligations.ArithmeticRoundsTheExactResult : Prop :=
  ∀ x y : Word, F32.isFinite x = true → F32.isFinite y = true →
    (F32.val x + F32.val y ≠ 0 → F32.add x y = F32.roundNearest (F32.val x + F32.val y)) ∧
    (F32.val x - F32.val y ≠ 0 → F32.sub x y = F32.roundNearest (F32.val x - F32.val y)) ∧
    (F32.val x * F32.val y ≠ 0 → F32.mul x y = F32.roundNearest (F32.val x * F32.val y)) ∧
    (F32.val x ≠ 0 → F32.val y ≠ 0 → F32.div x y = F32.roundNearest (F32.val x / F32.val y))

/-- The special cases of R12: infinities, zeros and their signs. -/
def Obligations.SpecialValueArithmetic : Prop :=
  ∀ x y : Word, F32.isNaN x = false → F32.isNaN y = false →
    (F32.isInf x = true → F32.isInf y = true →
      F32.div x y = F32.canonicalNaN ∧
      F32.mul x y = F32.inf (F32.sign x != F32.sign y) ∧
      F32.add x y = (if F32.sign x = F32.sign y then x else F32.canonicalNaN) ∧
      F32.sub x y = (if F32.sign x = F32.sign y then F32.canonicalNaN else x)) ∧
    (F32.isInf x = true → F32.isFinite y = true →
      F32.add x y = x ∧ F32.sub x y = x ∧ F32.add y x = x ∧ F32.sub y x = F32.neg x ∧
      F32.div x y = F32.inf (F32.sign x != F32.sign y) ∧
      F32.div y x = F32.zero (F32.sign x != F32.sign y) ∧
      (F32.val y ≠ 0 → F32.mul x y = F32.inf (F32.sign x != F32.sign y) ∧
        F32.mul y x = F32.inf (F32.sign x != F32.sign y)) ∧
      (F32.val y = 0 → F32.mul x y = F32.canonicalNaN ∧ F32.mul y x = F32.canonicalNaN)) ∧
    (F32.isFinite x = true → F32.isFinite y = true →
      (F32.val x + F32.val y = 0 → F32.add x y =
        F32.zero (F32.sign x && F32.sign y)) ∧
      (F32.val x - F32.val y = 0 → F32.sub x y =
        F32.zero (F32.sign x && !F32.sign y)) ∧
      (F32.val x * F32.val y = 0 → F32.mul x y = F32.zero (F32.sign x != F32.sign y)) ∧
      (F32.val x = 0 → F32.val y ≠ 0 → F32.div x y = F32.zero (F32.sign x != F32.sign y)) ∧
      (F32.val x ≠ 0 → F32.val y = 0 → F32.div x y = F32.inf (F32.sign x != F32.sign y)) ∧
      (F32.val x = 0 → F32.val y = 0 → F32.div x y = F32.canonicalNaN))

/-- Every operation that gives a NaN gives the canonical one, and does so when an operand is NaN
(R12, R13). -/
def Obligations.NaNResultsAreCanonical : Prop :=
  ∀ x y : Word, ∀ op ∈ [F32.add, F32.sub, F32.mul, F32.div],
    (F32.isNaN (op x y) = true → op x y = 0x7FC00000#32) ∧
    (F32.isNaN x = true ∨ F32.isNaN y = true → op x y = 0x7FC00000#32)

/-- Comparisons are those of the values, with the infinities at the ends and false for NaN;
negation flips bit 31 alone (R14). -/
def Obligations.ComparisonIsOfValues : Prop :=
  ∀ x y : Word,
    (F32.isNaN x = true ∨ F32.isNaN y = true → F32.lt x y = false) ∧
    (F32.isFinite x = true → F32.isFinite y = true →
      (F32.lt x y = true ↔ F32.val x < F32.val y)) ∧
    (F32.isInf x = true → F32.isFinite y = true →
      F32.lt x y = F32.sign x ∧ F32.lt y x = !F32.sign x) ∧
    (F32.isInf x = true → F32.isInf y = true →
      F32.lt x y = (F32.sign x && !F32.sign y)) ∧
    (∀ n : Nat, n < 2 ^ 128 → (F32.isNaN x = true → F32.ltNat x n = false) ∧
      (F32.isFinite x = true → (F32.ltNat x n = true ↔ F32.val x < n)) ∧
      (F32.isInf x = true → F32.ltNat x n = F32.sign x)) ∧
    (∀ k, (F32.neg x).getLsbD k = if k = 31 then !x.getLsbD k else x.getLsbD k)

/-- The product with 0.5 is the quotient by 2.0, for every word (R195). -/
def Obligations.HalvingIsDivisionByTwo : Prop :=
  ∀ x : Word, F32.mul x 0x3F000000#32 = F32.div x 0x40000000#32

/- ### Fast math -/

/-- U2F answers the greatest datum not above v * 2^-32, in [0, 1) (R110). -/
def Obligations.U2fRoundsTowardZeroIntoUnitInterval : Prop :=
  ∀ (v : Word) (s : State), ∃ t res, Completes (.u2f v) s t res ∧ KeepsRegistersBut [] s t ∧
    SameRam s t ∧ res = F32.roundTowardZero ((v.toNat : ℚ) / 2 ^ 32) ∧
    F32.isFinite res = true ∧ F32.sign res = false ∧
    F32.val res ≤ (v.toNat : ℚ) / 2 ^ 32 ∧ F32.val res < 1 ∧
    ∀ y, F32.isFinite y = true → F32.val y ≤ (v.toNat : ℚ) / 2 ^ 32 → F32.val y ≤ F32.val res

/-- F2U answers floor(x * 2^32), saturated, and 0 for NaN (R111). -/
def Obligations.F2uFloorsAndSaturates : Prop :=
  ∀ (x : Word) (s : State), ∃ t res, Completes (.f2u x) s t res ∧ KeepsRegistersBut [] s t ∧
    SameRam s t ∧
    (F32.isNaN x = true → res = 0) ∧
    (F32.isInf x = true → res = if F32.sign x then 0 else 0xFFFFFFFF#32) ∧
    (F32.isFinite x = true →
      (F32.val x ≤ 0 → res = 0) ∧ (1 ≤ F32.val x → res = 0xFFFFFFFF#32) ∧
      (0 < F32.val x → F32.val x < 1 → (res.toNat : ℤ) = ⌊F32.val x * 2 ^ 32⌋))

/-- F2U undoes U2F below 2^24, and U2F undoes F2U on [2^-9, 1), where a datum is a multiple of
2^-32 (R111; the wider range its prose gives does not hold, log entry 11). -/
def Obligations.FractionConversionsAreInverse : Prop :=
  (∀ v : Word, v.toNat < 2 ^ 24 → Operand.f2u (Operand.u2f v) = v) ∧
  ∀ x : Word, F32.isFinite x = true → 1 / 2 ^ 9 ≤ F32.val x → F32.val x < 1 →
    Operand.u2f (Operand.f2u x) = x

/-- POW2M1 answers the polynomial in Horner form with the constants of R102 (R112). -/
def Obligations.Pow2m1IsTheHornerPolynomial : Prop :=
  ∀ (x : Word) (s : State), ∃ t, Completes (.pow2m1 x) s t
      (F32.mul x (F32.add 0x3F317218#32 (F32.mul x (F32.add 0x3E75FDF0#32
        (F32.mul x (F32.add 0x3D635847#32 (F32.mul x 0x3C1D955B#32))))))) ∧
    KeepsRegistersBut [] s t ∧ SameRam s t

/-- FASTPOW computes its transform exactly, truncates toward zero and saturates; FPDOM records an
operand outside the domain and changes nothing else (R113; that FASTPOW_K is read as s32 is the
model's reading, log entry 5). -/
def Obligations.FastpowTruncatesTheExactTransform : Prop :=
  ∀ (a b : Word) (s : State), ∃ t res, Completes (.fastpow a b) s t res ∧
    KeepsRegistersBut [.status] s t ∧ SameRam s t ∧
    t.status = (if F32.isFinite a = true ∧ 0 < F32.val a ∧ F32.isFinite b = true then s.status
      else s.status ||| 0x00000002#32) ∧
    (F32.isFinite b = false → res = 0) ∧
    (F32.isFinite b = true → ∃ r : ℤ,
      (0 ≤ F32.val b * (a.toInt - s.config.fastpowK.toInt : ℤ) + s.config.fastpowK.toInt →
        r = ⌊F32.val b * (a.toInt - s.config.fastpowK.toInt : ℤ) + s.config.fastpowK.toInt⌋) ∧
      (F32.val b * (a.toInt - s.config.fastpowK.toInt : ℤ) + s.config.fastpowK.toInt < 0 →
        r = ⌈F32.val b * (a.toInt - s.config.fastpowK.toInt : ℤ) + s.config.fastpowK.toInt⌉) ∧
      res.toInt = min (max r (-2 ^ 31)) (2 ^ 31 - 1))

/-- FASTPOW with exponent 1.0 returns the base, and with exponent 0 the word FASTPOW_K (R113;
its reading as s32 is log entry 5). -/
def Obligations.FastpowAtExponentsOneAndZero : Prop :=
  ∀ (a : Word) (s : State), ∃ t t0,
    Completes (.fastpow a 0x3F800000#32) s t a ∧ Completes (.fastpow a 0) s t0 s.config.fastpowK

/-- LIMIT answers the limiter polynomial in the order of R114 (R115). -/
def Obligations.LimitIsTheLimiterPolynomial : Prop :=
  ∀ (x : Word) (s : State), ∃ t, Completes (.limit x) s t
      (F32.mul x (F32.add
        (F32.sub 0x3F800000#32 (F32.mul 0x3E428F5C#32 (F32.mul x x)))
        (F32.mul (F32.mul 0x3C84B5DD#32 (F32.mul x x)) (F32.mul x x)))) ∧
    KeepsRegistersBut [] s t ∧ SameRam s t

/-- The limiter is odd wherever its result is not NaN (R114; at a NaN result the canonical NaN has
one sign, log entry 10). -/
def Obligations.LimiterIsOdd : Prop :=
  ∀ x : Word, F32.isNaN (limit x) = false → limit (F32.neg x) = F32.neg (limit x)

/- ### Sine ROM -/

/-- QSIN answers the ROM word at an index up to STEPS (R131). -/
def Obligations.QsinAnswersTheRomWord : Prop :=
  ∀ (index : Word) (s : State), index.toNat ≤ s.config.steps →
    ∃ t res, Completes (.qsin index) s t res ∧ s.config.sineRom[index.toNat]? = some res ∧
      KeepsRegistersBut [] s t ∧ SameRam s t

/-- The default ROM has 513 words from +0.0 to 1.0, rises from word to word, and has the check sum
R130 gives. -/
def Obligations.DefaultRomRisesFromZeroToOne : Prop :=
  defaultSineRom.length = 513 ∧ defaultSineRom[0]? = some 0x00000000#32 ∧
  defaultSineRom[256]? = some 0x3F3504F3#32 ∧ defaultSineRom[512]? = some 0x3F800000#32 ∧
  defaultSineRom.IsChain (fun a b => a.toNat ≤ b.toNat) ∧
  defaultSineRom.foldl (· + ·) 0 = 0xF628F63B#32

/- ### Delay buffer -/

/-- DLYWR advances the cursor by one modulo 2^32 and stores the sample, every bit, at the new
position; nothing else changes (R140, R141). -/
def Obligations.DlywrStoresAtTheAdvancedCursor : Prop :=
  ∀ (v : Word) (s : State), s.inv = true → ∃ t, Completes (.dlywr v) s t 0 ∧
    t.cursor = s.cursor + 1 ∧ RamWithWord (s.ramIndex (s.cursor + 1)) v s t ∧
    s.ramIndex (s.cursor + 1) = (s.cursor.toNat + 1) % s.config.capacity ∧
    KeepsRegistersBut [.cursor] s t

/-- DLYRD splits the delay into floor and rounded fraction, answers the word at the integer delay
when the fraction is +0 and otherwise interpolates toward the more recent sample; ALIAS records a
delay outside [0, N) or not finite (R142, R143). -/
def Obligations.DlyrdInterpolatesBetweenTaps : Prop :=
  ∀ (d : Word) (s : State), ∃ t res, Completes (.dlyrd d) s t res ∧
    KeepsRegistersBut [.status] s t ∧ SameRam s t ∧
    (F32.isFinite d = false → t.status = s.status ||| 0x00000001#32 ∧
      res = s.ramRead (s.ramIndex s.cursor)) ∧
    (F32.isFinite d = true →
      t.status = (if 0 ≤ F32.val d ∧ F32.val d < s.config.capacity then s.status
        else s.status ||| 0x00000001#32) ∧
      ∃ a b f i : Word, i = BitVec.ofInt 32 ⌊F32.val d⌋ ∧
        a = s.ramRead (s.ramIndex (s.cursor - i)) ∧
        b = s.ramRead (s.ramIndex (s.cursor - i + 1)) ∧
        f = F32.roundNearest (F32.val d - ⌊F32.val d⌋) ∧
        res = if f = 0 then a else F32.add a (F32.mul (F32.sub b a) f))

/-- On a nonnegative delay the fraction is exact (R142). -/
def Obligations.DelayFractionIsExact : Prop :=
  ∀ d : Word, F32.isFinite d = true → 0 ≤ F32.val d →
    F32.val (Operand.delayFraction d) = F32.val d - ⌊F32.val d⌋

/-- A read at exactly the capacity answers what a read at delay 0 answers, and sets ALIAS (R143,
R144). -/
def Obligations.ReadAtCapacityAliasesTheNewest : Prop :=
  ∀ (d : Word) (s : State), F32.isFinite d = true → F32.val d = s.config.capacity →
    ∃ t t0 res, Completes (.dlyrd d) s t res ∧ Completes (.dlyrd 0) s t0 res ∧
      t.flag .alias_ = true

/-- After a sequence of DLYWR, a read at an integer delay below the capacity and below the number
of samples answers the sample written that many samples ago, bit for bit, with no flag (R46,
R144). -/
def Obligations.DelayRoundTripIsBitExact : Prop :=
  ∀ (samples : List Word) (s : State) (d : Word) (j : Nat), s.inv = true →
    j < samples.length → j < s.config.capacity → F32.isFinite d = true → F32.val d = j →
    ∃ t u res, execAll (samples.map .dlywr) s = .next t ∧ Completes (.dlyrd d) t u res ∧
      samples.reverse[j]? = some res ∧ u.status = t.status

/- ### LFO -/

/-- LFOSTEP.SINE advances the phase by the increment modulo 2^32 and answers the sine of the phase
before it: the folded position's top bits index the ROM, its low bits interpolate (R165, R166,
R168). -/
def Obligations.LfostepSineInterpolatesTheRom : Prop :=
  ∀ s : State, ∃ t p a b : Word, ∃ u : State,
    p = (if s.phase.getLsbD 30 then ~~~(s.phase <<< 2) else s.phase <<< 2) ∧
    s.config.sineRom[p.toNat / 2 ^ (32 - s.config.qsinLog2)]? = some a ∧
    s.config.sineRom[p.toNat / 2 ^ (32 - s.config.qsinLog2) + 1]? = some b ∧
    t = F32.add a (F32.mul (F32.sub b a) (Operand.u2f (p <<< s.config.qsinLog2))) ∧
    Completes .lfostepSine s u (if s.phase.getLsbD 31 then F32.neg t else t) ∧
    u.phase = s.phase + s.incr ∧ KeepsRegistersBut [.phase] s u ∧ SameRam s u

/-- LFOSTEP.TRI advances the phase and answers the signed fraction of the folded position of the
phase before it (R165, R166, R167). -/
def Obligations.LfostepTriFoldsThePhase : Prop :=
  ∀ s : State, ∃ t p : Word, ∃ u : State,
    p.toNat = (if s.phase.toNat / 2 ^ 30 % 2 = 1 then 2 ^ 32 - 1 - s.phase.toNat * 4 % 2 ^ 32
      else s.phase.toNat * 4 % 2 ^ 32) ∧
    t = Operand.u2f p ∧
    Completes .lfostepTri s u (if s.phase.toNat / 2 ^ 31 = 1 then F32.neg t else t) ∧
    u.phase = s.phase + s.incr ∧ KeepsRegistersBut [.phase] s u ∧ SameRam s u

/-- LFOSTEP.SAW advances the phase and answers U2F of the phase before it (R165, R169). -/
def Obligations.LfostepSawIsTheFractionOfThePhase : Prop :=
  ∀ s : State, ∃ u : State, Completes .lfostepSaw s u (Operand.u2f s.phase) ∧
    u.phase = s.phase + s.incr ∧ KeepsRegistersBut [.phase] s u ∧ SameRam s u

/-- The triangle stays in [-(1 - 2^-24), 1 - 2^-24] and the sawtooth in [0, 1 - 2^-24], for every
phase (R167, R169, R170). -/
def Obligations.TriangleAndSawtoothStayInRange : Prop :=
  ∀ now : Word, F32.isFinite (triangle now) = true ∧
    |F32.val (triangle now)| ≤ 1 - 1 / 2 ^ 24 ∧
    F32.isFinite (sawtooth now) = true ∧ 0 ≤ F32.val (sawtooth now) ∧
    F32.val (sawtooth now) ≤ 1 - 1 / 2 ^ 24

/-- With the default ROM the sine stays in [-1, 1], for every phase (R168, R170). -/
def Obligations.SineStaysInRange : Prop :=
  ∀ (c : Config) (now : Word), c.sineRom = defaultSineRom →
    F32.isFinite (sine c now) = true ∧ |F32.val (sine c now)| ≤ 1

/-- After n LFOSTEP commands of any waveform the phase is its start plus n increments, and for an
increment other than 0 it is back at its start exactly when n is a multiple of
2^32 / gcd(INCR, 2^32) (R47, R170). -/
def Obligations.LfoPhaseIsPeriodic : Prop :=
  ∀ (steps : List Instr) (s : State), (∀ i ∈ steps, isLfoStep i = true) →
    ∃ t, execAll steps s = .next t ∧
      t.phase = s.phase + BitVec.ofNat 32 steps.length * s.incr ∧ t.incr = s.incr ∧
      (s.incr ≠ 0 →
        (t.phase = s.phase ↔ 2 ^ 32 / Nat.gcd s.incr.toNat (2 ^ 32) ∣ steps.length))

/-- LFOSETSTEP writes the nearest integer, ties to even, saturated to the u32 range; NaN gives 0
(R160, R161). -/
def Obligations.LfosetstepRoundsAndSaturates : Prop :=
  ∀ (r : Word) (s : State), ∃ t, Completes (.lfosetstep r) s t 0 ∧
    KeepsRegistersBut [.incr] s t ∧ SameRam s t ∧
    (F32.isNaN r = true → t.incr = 0) ∧
    (F32.isInf r = true → t.incr = if F32.sign r then 0 else 0xFFFFFFFF#32) ∧
    (F32.isFinite r = true → ∃ n : ℤ, |F32.val r - n| ≤ 1 / 2 ∧
      (|F32.val r - n| = 1 / 2 → n % 2 = 0) ∧
      (t.incr.toNat : ℤ) = min (max n 0) (2 ^ 32 - 1))

/-- LFOSETFREQ sets the increment that LFOSETSTEP sets for hz ⊗ FSCALE (R162). -/
def Obligations.LfosetfreqScalesTheFrequency : Prop :=
  ∀ (hz : Word) (s : State), ∃ t, Completes (.lfosetfreq hz) s t 0 ∧
    exec (.lfosetstep (F32.mul hz 0x47AEC33E#32)) s = .next t ∧
    KeepsRegistersBut [.incr] s t ∧ SameRam s t

/-- LFOSETPER clamps a period below 0.1 ms, records it in PERCLAMP, and sets the increment that
LFOSETSTEP sets for PSCALE ⊘ ms (R163, R164). -/
def Obligations.LfosetperClampsThePeriod : Prop :=
  ∀ (ms : Word) (s : State), ∃ t u, Completes (.lfosetper ms) s t 0 ∧
    exec (.lfosetstep (F32.div 0x4CAAAAAB#32
      (if F32.lt ms 0x3DCCCCCD#32 then 0x3DCCCCCD#32 else ms))) s = .next u ∧
    t.incr = u.incr ∧
    t.status = (if F32.lt ms 0x3DCCCCCD#32 then s.status ||| 0x00000008#32 else s.status) ∧
    KeepsRegistersBut [.incr, .status] s t ∧ SameRam s t

/-- No period drives the increment above 894784896, that of 0.1 ms (R163, R164). -/
def Obligations.NoPeriodExceedsTheIncrementOfATenthMillisecond : Prop :=
  ∀ (ms : Word) (s : State), ∃ t, Completes (.lfosetper ms) s t 0 ∧ t.incr.toNat ≤ 894784896

/- ### Smoother -/

/-- SMOOTH moves CURDLY by RATE times its distance from TGTDLY, in the order of R180; ECHOSAMPLE
makes the same update and ECHOSTEP none. -/
def Obligations.SmoothMovesCurdlyTowardTarget : Prop :=
  ∀ s : State, ∃ t, Completes .smooth s t 0 ∧
    t.curdly = F32.add s.curdly (F32.mul 0x3A83126F#32 (F32.sub s.tgtdly s.curdly)) ∧
    KeepsRegistersBut [.curdly] s t ∧ SameRam s t ∧
    ∀ x : Word, ∃ u v, exec (.echosample x) s = .next u ∧ u.curdly = t.curdly ∧
      exec (.echostep x) s = .next v ∧ v.curdly = s.curdly

/-- At a finite target SMOOTH leaves CURDLY, but for -0.0, which becomes +0.0 (R181). -/
def Obligations.SmoothRestsAtItsTarget : Prop :=
  ∀ s : State, F32.isFinite s.curdly = true → s.tgtdly = s.curdly →
    ∃ t, Completes .smooth s t 0 ∧
      t.curdly = if s.curdly = 0x80000000#32 then 0 else s.curdly

/- ### Echo -/

/-- ECHOINIT stores an accepted target and ignores any other, sets the increment that LFOSETPER
sets for p3 ⊗ 4, stores the feedback bit for bit, and sets INITD; CURDLY, PHASE, DEPTH, CURSOR and
the RAM stay (R190 to R194). -/
def Obligations.EchoinitSetsTheEffectParameters : Prop :=
  ∀ (p1 p2 p3 p4 : Word) (s : State), ∃ smp : Word, ∃ s1 s2 : State,
    Completes (.echoinit p1 p2 p3 p4) s s1 0 ∧
    exec (.lfosetper (F32.mul p3 0x40800000#32)) s = .next s2 ∧
    smp = F32.mul (F32.mul p1 0x447A0000#32) 0x42400000#32 ∧
    s1.tgtdly = (if F32.lt 0 smp = true ∧ F32.ltNat smp s.config.capacity = true then smp
      else s.tgtdly) ∧
    s1.status = s2.status ||| (if F32.lt 0 smp = true ∧ F32.ltNat smp s.config.capacity = true
      then 0x00000000#32 else 0x00000004#32) ||| 0x00000100#32 ∧
    s1.incr = s2.incr ∧ s1.feedback = p4 ∧
    KeepsRegistersBut [.tgtdly, .incr, .feedback, .status] s s1 ∧ SameRam s s1

/-- ECHOSTEP reads the tap 1 ⊕ CURDLY as DLYRD does, before it writes; it writes the limited mix at
the advanced cursor and answers half the sum (R195, R196). -/
def Obligations.EchostepReadsThenWrites : Prop :=
  ∀ (x : Word) (s : State), s.inv = true → ∃ out : Word, ∃ u t : State,
    Completes (.dlyrd (F32.add 0x3F800000#32 s.curdly)) s u out ∧
    Completes (.echostep x) s t (F32.mul (F32.add x out) 0x3F000000#32) ∧
    t.status = u.status ∧ t.cursor = s.cursor + 1 ∧
    RamWithWord (s.ramIndex (s.cursor + 1)) (limit (F32.add x (F32.mul out s.feedback))) s t ∧
    KeepsRegistersBut [.cursor, .status] s t

/-- ECHOSAMPLE is SMOOTH followed by ECHOSTEP, in state and result (R197); it changes CURDLY,
CURSOR, STATUS and one RAM word, at the advanced cursor. -/
def Obligations.EchosampleIsSmoothThenEchostep : Prop :=
  (∀ x b c d : Word, decode ⟨0x00000043#32, x, b, c, d⟩ = .ok (.echosample x)) ∧
  ∀ (x : Word) (s : State), ∃ t res, Completes (.echosample x) s t res ∧
    execAll [.smooth, .echostep x] s = .next t ∧
    t.cursor = s.cursor + 1 ∧
    t.curdly = F32.add s.curdly (F32.mul 0x3A83126F#32 (F32.sub s.tgtdly s.curdly)) ∧
    KeepsRegistersBut [.curdly, .cursor, .status] s t ∧
    (s.inv = true → ∃ w, RamWithWord (s.ramIndex (s.cursor + 1)) w s t)

/-- The echo loop is CURDLY + 2 samples long: with CURDLY at the integer j, the word that an
ECHOSTEP writes is the tap of the ECHOSTEP that comes j + 2 steps later (R195, R196). -/
def Obligations.EchoLoopDelayIsCurdlyPlusTwo : Prop :=
  ∀ (x y : Word) (between : List Word) (s : State) (j : Nat), s.inv = true →
    F32.isFinite s.curdly = true → F32.val s.curdly = j → j + 1 < s.config.capacity →
    between.length = j + 1 →
    ∃ t u v : State, ∃ w res : Word, Completes (.echostep x) s t res ∧
      w = t.ramRead (t.ramIndex t.cursor) ∧
      execAll (between.map .echostep) t = .next u ∧
      Completes (.echostep y) u v (F32.mul (F32.add y w) 0x3F000000#32)
end

