-- ==== Sys2Proof/Laws/Float.lean ====
section
/-! SUPPORT. The fields of a packed binary32 word, the magnitudes of neighbouring data, and the
exactness of rounding a datum (spec/00_scope.md R10, R11). -/

namespace Sys2Proof.F32

/-- Bits 30:0 of a word. -/
def bits (x : Word) : Nat := x.toNat % 2 ^ 31

theorem bits_lt (x : Word) : bits x < 2 ^ 31 := Nat.mod_lt _ (by decide)

theorem bits_eq (x : Word) : bits x = expo x * 2 ^ 23 + frac x := by
  simp only [bits, expo, frac]
  omega

theorem frac_lt (x : Word) : frac x < 2 ^ 23 := Nat.mod_lt _ (by decide)

theorem expo_lt (x : Word) : expo x < 2 ^ 8 := Nat.mod_lt _ (by decide)

theorem sign_eq (x : Word) : sign x = decide (2 ^ 31 ≤ x.toNat) := by
  simp [sign, BitVec.msb_eq_decide]

theorem toNat_eq (x : Word) : x.toNat = (if sign x then 2 ^ 31 else 0) + bits x := by
  have := x.isLt
  simp only [sign_eq, bits, decide_eq_true_eq]
  split
  all_goals omega

/-- A word is its sign and its magnitude bits. -/
theorem pack_sign_bits (x : Word) : pack (sign x) (bits x) = x := by
  apply BitVec.eq_of_toNat_eq
  have h := toNat_eq x
  simp only [pack, BitVec.toNat_ofNat, ← h]
  exact Nat.mod_eq_of_lt x.isLt

theorem toNat_pack (s : Bool) {b : Nat} (h : b < 2 ^ 31) :
    (pack s b).toNat = (if s then 2 ^ 31 else 0) + b := by
  simp only [pack, BitVec.toNat_ofNat]
  split
  all_goals omega

@[simp] theorem sign_pack (s : Bool) {b : Nat} (h : b < 2 ^ 31) : sign (pack s b) = s := by
  rw [sign_eq, toNat_pack s h]
  cases s
  · simpa using h
  · simp

@[simp] theorem bits_pack (s : Bool) {b : Nat} (h : b < 2 ^ 31) : bits (pack s b) = b := by
  rw [bits, toNat_pack s h]
  cases s <;> simp <;> omega

theorem expo_eq_bits (x : Word) : expo x = bits x / 2 ^ 23 := by
  simp only [expo, bits]
  omega

theorem frac_eq_bits (x : Word) : frac x = bits x % 2 ^ 23 := by
  simp only [frac, bits]
  omega

/-- The magnitude as a function of the magnitude bits. -/
def magOfBits (b : Nat) : Nat :=
  if b / 2 ^ 23 = 0 then b % 2 ^ 23 else (2 ^ 23 + b % 2 ^ 23) * 2 ^ (b / 2 ^ 23 - 1)

theorem mag_eq (x : Word) : mag x = magOfBits (bits x) := by
  simp only [mag, magOfBits, expo_eq_bits, frac_eq_bits]

@[simp] theorem mag_pack (s : Bool) {b : Nat} (h : b < 2 ^ 31) :
    mag (pack s b) = magOfBits b := by
  rw [mag_eq, bits_pack s h]

theorem units_pack (s : Bool) {b : Nat} (h : b < 2 ^ 31) :
    units (pack s b) = if s then -(magOfBits b : Int) else magOfBits b := by
  rw [units, sign_pack s h, mag_pack s h]

/-- Bits up to those of an infinity are no NaN. -/
theorem isNaN_pack (s : Bool) {b : Nat} (h : b ≤ infBits) : isNaN (pack s b) = false := by
  have hb : b < 2 ^ 31 := lt_of_le_of_lt h (by decide)
  simp only [isNaN, expo_eq_bits, frac_eq_bits, bits_pack s hb]
  simp only [infBits] at h
  simp only [Bool.and_eq_false_iff, beq_eq_false_iff_ne, bne_eq_false_iff_eq]
  omega

theorem isFinite_iff_bits (x : Word) : isFinite x = decide (bits x < infBits) := by
  have h := bits_lt x
  have hiff : bits x / 2 ^ 23 ≠ 255 ↔ bits x < infBits := by
    simp only [infBits]
    omega
  rw [isFinite, expo_eq_bits, Bool.eq_iff_iff, bne_iff_ne, decide_eq_true_eq]
  exact hiff

/-- A word is exactly one of NaN, infinite and finite. -/
theorem isNaN_or_isInf_or_isFinite (x : Word) :
    (isNaN x = true ∧ isInf x = false ∧ isFinite x = false) ∨
      (isNaN x = false ∧ isInf x = true ∧ isFinite x = false) ∨
      (isNaN x = false ∧ isInf x = false ∧ isFinite x = true) := by
  simp only [isNaN, isInf, isFinite, bne]
  by_cases h : expo x = 255 <;> by_cases h' : frac x = 0 <;> simp [h, h']

theorem rneBits_le (n d : Nat) : rneBits n d ≤ infBits := Nat.min_le_right _ _

theorem rtzBits_le (n d : Nat) : rtzBits n d ≤ maxFiniteBits := Nat.min_le_right _ _

/-- No rounding gives a NaN (R13). -/
@[simp] theorem isNaN_rne (s : Bool) (n d : Nat) : isNaN (rne s n d) = false :=
  isNaN_pack s (rneBits_le n d)

@[simp] theorem isNaN_rtz (n d : Nat) : isNaN (rtz n d) = false :=
  isNaN_pack false (le_trans (rtzBits_le n d) (by decide))

@[simp] theorem sign_rne (s : Bool) (n d : Nat) : sign (rne s n d) = s :=
  sign_pack s (lt_of_le_of_lt (rneBits_le n d) (by decide))

@[simp] theorem bits_rne (s : Bool) (n d : Nat) : bits (rne s n d) = rneBits n d :=
  bits_pack s (lt_of_le_of_lt (rneBits_le n d) (by decide))

@[simp] theorem bits_rtz (n d : Nat) : bits (rtz n d) = rtzBits n d :=
  bits_pack false (lt_of_le_of_lt (rtzBits_le n d) (by decide))

@[simp] theorem sign_rtz (n d : Nat) : sign (rtz n d) = false :=
  sign_pack false (lt_of_le_of_lt (rtzBits_le n d) (by decide))

theorem neg_eq_pack (x : Word) : neg x = pack (!sign x) (bits x) := by
  apply BitVec.eq_of_toNat_eq
  have hlt := bits_lt x
  have hx : x = BitVec.ofNat 32 ((if sign x then 2 ^ 31 else 0) + bits x) :=
    (pack_sign_bits x).symm
  rw [toNat_pack _ hlt, neg, BitVec.toNat_xor, toNat_eq x,
    show (0x80000000#32).toNat = 2 ^ 31 from rfl]
  cases sign x
  · have := Nat.two_pow_add_eq_or_of_lt hlt 1
    simp only [Bool.false_eq_true, if_false, Nat.zero_add, Bool.not_false, if_true]
    rw [Nat.xor_comm]
    have h2 : 2 ^ 31 ^^^ bits x = 2 ^ 31 + bits x := by
      rw [show (2 ^ 31 : Nat) = 2 ^ 31 * 1 from rfl, this]
      apply Nat.eq_of_testBit_eq
      intro i
      simp only [Nat.testBit_xor, Nat.testBit_or, Nat.mul_one, Nat.testBit_two_pow]
      by_cases hi : 31 = i
      · subst hi
        simp [Nat.testBit_lt_two_pow hlt]
      · simp [hi]
    exact h2
  · have := Nat.two_pow_add_eq_or_of_lt hlt 1
    simp only [if_true, Bool.not_true, Bool.false_eq_true, if_false, Nat.zero_add]
    rw [show (2 ^ 31 : Nat) = 2 ^ 31 * 1 from rfl, this]
    apply Nat.eq_of_testBit_eq
    intro i
    simp only [Nat.testBit_xor, Nat.testBit_or, Nat.mul_one, Nat.testBit_two_pow]
    by_cases hi : 31 = i
    · subst hi
      simp [Nat.testBit_lt_two_pow hlt]
    · simp [hi]

@[simp] theorem bits_neg (x : Word) : bits (neg x) = bits x := by
  rw [neg_eq_pack, bits_pack _ (bits_lt x)]

@[simp] theorem sign_neg (x : Word) : sign (neg x) = !sign x := by
  rw [neg_eq_pack, sign_pack _ (bits_lt x)]

@[simp] theorem mag_neg (x : Word) : mag (neg x) = mag x := by
  rw [mag_eq, mag_eq, bits_neg]

@[simp] theorem expo_neg (x : Word) : expo (neg x) = expo x := by
  rw [expo_eq_bits, expo_eq_bits, bits_neg]

@[simp] theorem frac_neg (x : Word) : frac (neg x) = frac x := by
  rw [frac_eq_bits, frac_eq_bits, bits_neg]

@[simp] theorem isNaN_neg (x : Word) : isNaN (neg x) = isNaN x := by simp [isNaN]

@[simp] theorem isInf_neg (x : Word) : isInf (neg x) = isInf x := by simp [isInf]

@[simp] theorem isFinite_neg (x : Word) : isFinite (neg x) = isFinite x := by simp [isFinite]

@[simp] theorem units_neg (x : Word) : units (neg x) = -units x := by
  simp only [units, sign_neg, mag_neg]
  cases sign x <;> simp

theorem natAbs_units (x : Word) : (units x).natAbs = mag x := by
  unfold units
  split <;> simp

theorem mag_eq_zero_iff (x : Word) : mag x = 0 ↔ bits x = 0 := by
  have h := bits_lt x
  rw [mag_eq, magOfBits]
  split
  next h0 => omega
  next h0 =>
    constructor
    · intro he
      have := Nat.two_pow_pos (bits x / 2 ^ 23 - 1)
      rcases Nat.mul_eq_zero.mp he with h1 | h1 <;> omega
    · intro he
      omega

/-- The next datum's magnitude is above: a spacing of 2^(e-1) units in binade e. -/
theorem magOfBits_succ (b : Nat) :
    magOfBits (b + 1) = magOfBits b + 2 ^ (b / 2 ^ 23 - 1) := by
  simp only [magOfBits]
  by_cases hf : b % 2 ^ 23 = 2 ^ 23 - 1
  · have h1 : (b + 1) / 2 ^ 23 = b / 2 ^ 23 + 1 := by omega
    have h2 : (b + 1) % 2 ^ 23 = 0 := by omega
    rw [h1, h2, hf, if_neg (by omega)]
    split
    next h0 => rw [h0]; decide
    next h0 =>
      obtain ⟨e, he⟩ : ∃ e, b / 2 ^ 23 = e + 1 := ⟨b / 2 ^ 23 - 1, by omega⟩
      rw [he]
      simp only [Nat.add_sub_cancel, Nat.pow_succ]
      omega
  · have h1 : (b + 1) / 2 ^ 23 = b / 2 ^ 23 := by omega
    have h2 : (b + 1) % 2 ^ 23 = b % 2 ^ 23 + 1 := by omega
    rw [h1, h2]
    split
    next h0 => rw [h0]; simp
    next h0 => rw [← Nat.add_assoc, Nat.add_mul, Nat.one_mul]

/-- Magnitudes order as their bits do. -/
theorem magOfBits_strictMono : StrictMono magOfBits :=
  strictMono_nat_of_lt_succ fun b => by
    rw [magOfBits_succ]
    have := Nat.two_pow_pos (b / 2 ^ 23 - 1)
    omega

theorem magOfBits_le_iff {a b : Nat} : magOfBits a ≤ magOfBits b ↔ a ≤ b :=
  magOfBits_strictMono.le_iff_le

theorem magOfBits_infBits : magOfBits infBits = 2 ^ 277 := by decide +kernel

/-- A finite magnitude is below 2^128 (R10). -/
theorem mag_lt_of_isFinite {x : Word} (h : isFinite x = true) : mag x < 2 ^ 277 := by
  rw [isFinite_iff_bits, decide_eq_true_eq] at h
  rw [mag_eq, ← magOfBits_infBits]
  exact magOfBits_strictMono h

theorem roundHalfEven_mul (q : Nat) {d : Nat} (hd : 0 < d) : roundHalfEven (q * d) d = q := by
  simp [roundHalfEven, Nat.mul_div_cancel q hd]
  omega

/-- The spacing at a datum's magnitude, and its bits from its place in it. -/
theorem magOfBits_spacing (b : Nat) :
    magOfBits b = (b - spacing (magOfBits b) * 2 ^ 23) * 2 ^ spacing (magOfBits b) ∧
      spacing (magOfBits b) * 2 ^ 23 ≤ b := by
  by_cases h0 : b / 2 ^ 23 = 0
  · have hb : b < 2 ^ 23 := by omega
    have hm : magOfBits b = b := by
      simp only [magOfBits, h0, if_true]
      omega
    have hs : spacing b = 0 := by
      simp only [spacing]
      by_cases hz : b = 0
      · subst hz; decide
      · have := (Nat.log2_lt hz).mpr hb
        omega
    rw [hm, hs]
    simp
  · obtain ⟨e, he⟩ : ∃ e, b / 2 ^ 23 = e + 1 := ⟨b / 2 ^ 23 - 1, by omega⟩
    have hm : magOfBits b = (2 ^ 23 + b % 2 ^ 23) * 2 ^ e := by
      simp only [magOfBits, he]
      simp
    have hlog : Nat.log2 ((2 ^ 23 + b % 2 ^ 23) * 2 ^ e) = 23 + e := by
      have hpos : 0 < 2 ^ e := Nat.two_pow_pos e
      have hne : (2 ^ 23 + b % 2 ^ 23) * 2 ^ e ≠ 0 := by positivity
      rw [Nat.log2_eq_iff hne]
      constructor
      · rw [Nat.pow_add]
        exact Nat.mul_le_mul_right _ (by omega)
      · rw [show 23 + e + 1 = 24 + e by omega, Nat.pow_add]
        exact Nat.mul_lt_mul_of_pos_right (by omega) hpos
    have hs : spacing (magOfBits b) = e := by
      rw [spacing, hm, hlog]
      omega
    rw [hs, hm]
    constructor
    · congr 1
      omega
    · omega

/-- Rounding the magnitude of a datum gives the datum (R11). -/
theorem rneBits_magOfBits {b : Nat} (h : b ≤ infBits) : rneBits (magOfBits b) 1 = b := by
  obtain ⟨h1, h2⟩ := magOfBits_spacing b
  simp only [rneBits, Nat.div_one, Nat.one_mul]
  have hr : roundHalfEven (magOfBits b) (2 ^ spacing (magOfBits b)) =
      b - spacing (magOfBits b) * 2 ^ 23 := by
    conv_lhs => rw [h1]
    have := roundHalfEven_mul (b - spacing (magOfBits b) * 2 ^ 23)
      (Nat.two_pow_pos (spacing (magOfBits b)))
    rw [← h1] at this ⊢
    exact this
  rw [hr]
  omega

/-- Rounding a finite datum gives the datum itself (R11). -/
theorem rne_mag {x : Word} (h : isFinite x = true) : rne (sign x) (mag x) 1 = x := by
  rw [isFinite_iff_bits, decide_eq_true_eq] at h
  rw [rne, mag_eq, rneBits_magOfBits (le_of_lt h), pack_sign_bits]

end Sys2Proof.F32
end

