-- ==== Sys2Proof/Laws/Memory.lean ====
section
/-! SUPPORT. The delay RAM: read after write, and the canonical form that every write keeps
(spec/20_memory.md R62, R63). -/

namespace Sys2Proof.Machine

@[simp] theorem Memory.read_nil (i : Nat) : Memory.read [] i = Memory.unlisted := rfl

theorem Memory.read_pair (j : Nat) (v : Word) (m : Memory) (i : Nat) :
    Memory.read ((j, v) :: m) i =
      if i = j then v else if i < j then Memory.unlisted else Memory.read m i := rfl

@[simp] theorem Memory.above_nil (i : Nat) : Memory.above i [] = true := rfl

@[simp] theorem Memory.above_cons (i j : Nat) (v : Word) (m : Memory) :
    Memory.above i ((j, v) :: m) = (decide (i < j) && Memory.above i m) := rfl

@[simp] theorem Memory.within_nil (n : Nat) : Memory.within n [] = true := rfl

@[simp] theorem Memory.within_cons (n j : Nat) (v : Word) (m : Memory) :
    Memory.within n ((j, v) :: m) = (decide (j < n) && Memory.within n m) := rfl

@[simp] theorem Memory.wf_nil : Memory.wf [] = true := rfl

@[simp] theorem Memory.wf_cons (j : Nat) (v : Word) (m : Memory) :
    Memory.wf ((j, v) :: m) = (v != Memory.unlisted && Memory.above j m && Memory.wf m) := rfl

theorem Memory.above_trans {i j : Nat} (h : i ≤ j) :
    ∀ {m : Memory}, Memory.above j m = true → Memory.above i m = true
  | [], _ => rfl
  | (k, v) :: m, hm => by
    simp only [Memory.above_cons, Bool.and_eq_true, decide_eq_true_eq] at hm ⊢
    exact ⟨by omega, Memory.above_trans h hm.2⟩

/-- An index that every listed index is above reads as an unlisted one. -/
theorem Memory.read_of_above {i j : Nat} (h : i ≤ j) :
    ∀ {m : Memory}, Memory.above j m = true → Memory.read m i = Memory.unlisted
  | [], _ => rfl
  | (k, v) :: m, hm => by
    simp only [Memory.above_cons, Bool.and_eq_true, decide_eq_true_eq] at hm
    rw [Memory.read_pair, if_neg (by omega), if_pos (by omega)]

theorem Memory.read_consWord {i : Nat} {v : Word} {m : Memory} (h : Memory.above i m = true)
    (k : Nat) : Memory.read (Memory.cons i v m) k = if k = i then v else Memory.read m k := by
  unfold Memory.cons
  split
  next hv =>
    split
    next hk => rw [hk, Memory.read_of_above (le_refl i) h, hv]
    next => rfl
  next =>
    rw [Memory.read_pair]
    split
    next => rfl
    next hk =>
      split
      next hlt => rw [Memory.read_of_above (le_of_lt hlt) h]
      next => rfl

theorem Memory.wf_consWord {i : Nat} {v : Word} {m : Memory} (h : Memory.above i m = true)
    (hm : Memory.wf m = true) : Memory.wf (Memory.cons i v m) = true := by
  unfold Memory.cons
  split
  next => exact hm
  next hv => simp [hv, h, hm]

theorem Memory.above_consWord {k i : Nat} {v : Word} {m : Memory} (hk : k < i)
    (h : Memory.above k m = true) : Memory.above k (Memory.cons i v m) = true := by
  unfold Memory.cons
  split
  next => exact h
  next => simp [hk, h]

theorem Memory.within_consWord {n i : Nat} {v : Word} {m : Memory} (hi : i < n)
    (h : Memory.within n m = true) : Memory.within n (Memory.cons i v m) = true := by
  unfold Memory.cons
  split
  next => exact h
  next => simp [hi, h]

theorem Memory.above_write {k i : Nat} (v : Word) (hk : k < i) :
    ∀ {m : Memory}, Memory.above k m = true → Memory.above k (Memory.write m i v) = true
  | [], _ => Memory.above_consWord hk rfl
  | (j, w) :: m, h => by
    have h' := h
    simp only [Memory.above_cons, Bool.and_eq_true, decide_eq_true_eq] at h'
    unfold Memory.write
    split
    next => exact Memory.above_consWord hk h'.2
    next =>
      split
      next => exact Memory.above_consWord hk h
      next => simp [h'.1, Memory.above_write v hk h'.2]

/-- A write keeps the canonical form. -/
theorem Memory.wf_write (i : Nat) (v : Word) :
    ∀ {m : Memory}, Memory.wf m = true → Memory.wf (Memory.write m i v) = true
  | [], _ => Memory.wf_consWord rfl rfl
  | (j, w) :: m, h => by
    have h' := h
    simp only [Memory.wf_cons, Bool.and_eq_true] at h'
    unfold Memory.write
    split
    next hij => exact Memory.wf_consWord (hij ▸ h'.1.2) h'.2
    next hij =>
      split
      next hlt =>
        refine Memory.wf_consWord ?_ h
        simp [hlt, Memory.above_trans (le_of_lt hlt) h'.1.2]
      next hlt =>
        simp only [Memory.wf_cons, Bool.and_eq_true]
        exact ⟨⟨h'.1.1, Memory.above_write v (by omega) h'.1.2⟩, Memory.wf_write i v h'.2⟩

/-- A write at an index below the capacity keeps every listed index below it. -/
theorem Memory.within_write {n i : Nat} (v : Word) (hi : i < n) :
    ∀ {m : Memory}, Memory.within n m = true → Memory.within n (Memory.write m i v) = true
  | [], _ => Memory.within_consWord hi rfl
  | (j, w) :: m, h => by
    have h' := h
    simp only [Memory.within_cons, Bool.and_eq_true, decide_eq_true_eq] at h'
    unfold Memory.write
    split
    next => exact Memory.within_consWord hi h'.2
    next =>
      split
      next => exact Memory.within_consWord hi h
      next => simp [h'.1, Memory.within_write v hi h'.2]

/-- A read after a write: the written word at its index, and what was there elsewhere. -/
theorem Memory.read_write (i : Nat) (v : Word) (k : Nat) :
    ∀ {m : Memory}, Memory.wf m = true →
      Memory.read (Memory.write m i v) k = if k = i then v else Memory.read m k
  | [], _ => Memory.read_consWord rfl k
  | (j, w) :: m, h => by
    have h' := h
    simp only [Memory.wf_cons, Bool.and_eq_true] at h'
    unfold Memory.write
    split
    next hij =>
      subst hij
      rw [Memory.read_consWord h'.1.2, Memory.read_pair]
      split
      next => rfl
      next hk =>
        split
        next hlt => rw [Memory.read_of_above (le_of_lt hlt) h'.1.2]
        next => rfl
    next hij =>
      split
      next hlt =>
        refine Memory.read_consWord ?_ k
        simp [hlt, Memory.above_trans (le_of_lt hlt) h'.1.2]
      next hlt =>
        rw [Memory.read_pair, Memory.read_pair, Memory.read_write i v k h'.2]
        by_cases hkj : k = j
        · have : k ≠ i := by omega
          simp [hkj, show j ≠ i by omega]
        · by_cases hki : k = i
          · subst hki
            rw [if_neg hkj, if_neg hlt]
            simp
          · simp [hkj, hki]

/-- Two memories in canonical form that read alike are equal. -/
theorem Memory.ext_read : ∀ {m m' : Memory}, Memory.wf m = true → Memory.wf m' = true →
    (∀ k, Memory.read m k = Memory.read m' k) → m = m'
  | [], [], _, _, _ => rfl
  | [], (j, v) :: m', _, h', e => by
    simp only [Memory.wf_cons, Bool.and_eq_true, bne_iff_ne] at h'
    have := e j
    rw [Memory.read_nil, Memory.read_pair, if_pos rfl] at this
    exact absurd this.symm h'.1.1
  | (j, v) :: m, [], h, _, e => by
    simp only [Memory.wf_cons, Bool.and_eq_true, bne_iff_ne] at h
    have := e j
    rw [Memory.read_nil, Memory.read_pair, if_pos rfl] at this
    exact absurd this h.1.1
  | (j, v) :: m, (j', v') :: m', h, h', e => by
    simp only [Memory.wf_cons, Bool.and_eq_true, bne_iff_ne] at h h'
    have hj : j = j' := by
      rcases Nat.lt_trichotomy j j' with hlt | heq | hgt
      · have := e j
        rw [Memory.read_pair, Memory.read_pair, if_pos rfl, if_neg (by omega), if_pos hlt] at this
        exact absurd this h.1.1
      · exact heq
      · have := e j'
        rw [Memory.read_pair, Memory.read_pair, if_pos rfl, if_neg (by omega), if_pos hgt] at this
        exact absurd this.symm h'.1.1
    subst hj
    have hv : v = v' := by simpa [Memory.read_pair] using e j
    subst hv
    congr 1
    refine Memory.ext_read h.2 h'.2 fun k => ?_
    by_cases hk : k ≤ j
    · rw [Memory.read_of_above hk h.1.2, Memory.read_of_above hk h'.1.2]
    · have := e k
      rwa [Memory.read_pair, Memory.read_pair, if_neg (by omega), if_neg (by omega),
        if_neg (by omega), if_neg (by omega)] at this

end Sys2Proof.Machine
end

