-- ==== Sys2Proof/Laws/State.lean ====
section
/-! SUPPORT. One lemma per field per update of one field (Machine/State.lean), each true by rfl. -/

namespace Sys2Proof.Machine

variable (s : State)

@[simp] theorem State.setStatus_config (v : Word) : (s.setStatus v).config = s.config := rfl
@[simp] theorem State.setStatus_status (v : Word) : (s.setStatus v).status = v := rfl
@[simp] theorem State.setStatus_cursor (v : Word) : (s.setStatus v).cursor = s.cursor := rfl
@[simp] theorem State.setStatus_phase (v : Word) : (s.setStatus v).phase = s.phase := rfl
@[simp] theorem State.setStatus_incr (v : Word) : (s.setStatus v).incr = s.incr := rfl
@[simp] theorem State.setStatus_feedback (v : Word) : (s.setStatus v).feedback = s.feedback := rfl
@[simp] theorem State.setStatus_curdly (v : Word) : (s.setStatus v).curdly = s.curdly := rfl
@[simp] theorem State.setStatus_tgtdly (v : Word) : (s.setStatus v).tgtdly = s.tgtdly := rfl
@[simp] theorem State.setStatus_depth (v : Word) : (s.setStatus v).depth = s.depth := rfl
@[simp] theorem State.setStatus_ram (v : Word) : (s.setStatus v).ram = s.ram := rfl
@[simp] theorem State.setStatus_rsp (v : Word) : (s.setStatus v).rsp = s.rsp := rfl
@[simp] theorem State.setStatus_inputs (v : Word) : (s.setStatus v).inputs = s.inputs := rfl
@[simp] theorem State.setStatus_responses (v : Word) : (s.setStatus v).responses = s.responses := rfl
@[simp] theorem State.setStatus_refusalMark (v : Word) : (s.setStatus v).refusalMark = s.refusalMark := rfl

@[simp] theorem State.setCursor_config (v : Word) : (s.setCursor v).config = s.config := rfl
@[simp] theorem State.setCursor_status (v : Word) : (s.setCursor v).status = s.status := rfl
@[simp] theorem State.setCursor_cursor (v : Word) : (s.setCursor v).cursor = v := rfl
@[simp] theorem State.setCursor_phase (v : Word) : (s.setCursor v).phase = s.phase := rfl
@[simp] theorem State.setCursor_incr (v : Word) : (s.setCursor v).incr = s.incr := rfl
@[simp] theorem State.setCursor_feedback (v : Word) : (s.setCursor v).feedback = s.feedback := rfl
@[simp] theorem State.setCursor_curdly (v : Word) : (s.setCursor v).curdly = s.curdly := rfl
@[simp] theorem State.setCursor_tgtdly (v : Word) : (s.setCursor v).tgtdly = s.tgtdly := rfl
@[simp] theorem State.setCursor_depth (v : Word) : (s.setCursor v).depth = s.depth := rfl
@[simp] theorem State.setCursor_ram (v : Word) : (s.setCursor v).ram = s.ram := rfl
@[simp] theorem State.setCursor_rsp (v : Word) : (s.setCursor v).rsp = s.rsp := rfl
@[simp] theorem State.setCursor_inputs (v : Word) : (s.setCursor v).inputs = s.inputs := rfl
@[simp] theorem State.setCursor_responses (v : Word) : (s.setCursor v).responses = s.responses := rfl
@[simp] theorem State.setCursor_refusalMark (v : Word) : (s.setCursor v).refusalMark = s.refusalMark := rfl

@[simp] theorem State.setPhase_config (v : Word) : (s.setPhase v).config = s.config := rfl
@[simp] theorem State.setPhase_status (v : Word) : (s.setPhase v).status = s.status := rfl
@[simp] theorem State.setPhase_cursor (v : Word) : (s.setPhase v).cursor = s.cursor := rfl
@[simp] theorem State.setPhase_phase (v : Word) : (s.setPhase v).phase = v := rfl
@[simp] theorem State.setPhase_incr (v : Word) : (s.setPhase v).incr = s.incr := rfl
@[simp] theorem State.setPhase_feedback (v : Word) : (s.setPhase v).feedback = s.feedback := rfl
@[simp] theorem State.setPhase_curdly (v : Word) : (s.setPhase v).curdly = s.curdly := rfl
@[simp] theorem State.setPhase_tgtdly (v : Word) : (s.setPhase v).tgtdly = s.tgtdly := rfl
@[simp] theorem State.setPhase_depth (v : Word) : (s.setPhase v).depth = s.depth := rfl
@[simp] theorem State.setPhase_ram (v : Word) : (s.setPhase v).ram = s.ram := rfl
@[simp] theorem State.setPhase_rsp (v : Word) : (s.setPhase v).rsp = s.rsp := rfl
@[simp] theorem State.setPhase_inputs (v : Word) : (s.setPhase v).inputs = s.inputs := rfl
@[simp] theorem State.setPhase_responses (v : Word) : (s.setPhase v).responses = s.responses := rfl
@[simp] theorem State.setPhase_refusalMark (v : Word) : (s.setPhase v).refusalMark = s.refusalMark := rfl

@[simp] theorem State.setIncr_config (v : Word) : (s.setIncr v).config = s.config := rfl
@[simp] theorem State.setIncr_status (v : Word) : (s.setIncr v).status = s.status := rfl
@[simp] theorem State.setIncr_cursor (v : Word) : (s.setIncr v).cursor = s.cursor := rfl
@[simp] theorem State.setIncr_phase (v : Word) : (s.setIncr v).phase = s.phase := rfl
@[simp] theorem State.setIncr_incr (v : Word) : (s.setIncr v).incr = v := rfl
@[simp] theorem State.setIncr_feedback (v : Word) : (s.setIncr v).feedback = s.feedback := rfl
@[simp] theorem State.setIncr_curdly (v : Word) : (s.setIncr v).curdly = s.curdly := rfl
@[simp] theorem State.setIncr_tgtdly (v : Word) : (s.setIncr v).tgtdly = s.tgtdly := rfl
@[simp] theorem State.setIncr_depth (v : Word) : (s.setIncr v).depth = s.depth := rfl
@[simp] theorem State.setIncr_ram (v : Word) : (s.setIncr v).ram = s.ram := rfl
@[simp] theorem State.setIncr_rsp (v : Word) : (s.setIncr v).rsp = s.rsp := rfl
@[simp] theorem State.setIncr_inputs (v : Word) : (s.setIncr v).inputs = s.inputs := rfl
@[simp] theorem State.setIncr_responses (v : Word) : (s.setIncr v).responses = s.responses := rfl
@[simp] theorem State.setIncr_refusalMark (v : Word) : (s.setIncr v).refusalMark = s.refusalMark := rfl

@[simp] theorem State.setFeedback_config (v : Word) : (s.setFeedback v).config = s.config := rfl
@[simp] theorem State.setFeedback_status (v : Word) : (s.setFeedback v).status = s.status := rfl
@[simp] theorem State.setFeedback_cursor (v : Word) : (s.setFeedback v).cursor = s.cursor := rfl
@[simp] theorem State.setFeedback_phase (v : Word) : (s.setFeedback v).phase = s.phase := rfl
@[simp] theorem State.setFeedback_incr (v : Word) : (s.setFeedback v).incr = s.incr := rfl
@[simp] theorem State.setFeedback_feedback (v : Word) : (s.setFeedback v).feedback = v := rfl
@[simp] theorem State.setFeedback_curdly (v : Word) : (s.setFeedback v).curdly = s.curdly := rfl
@[simp] theorem State.setFeedback_tgtdly (v : Word) : (s.setFeedback v).tgtdly = s.tgtdly := rfl
@[simp] theorem State.setFeedback_depth (v : Word) : (s.setFeedback v).depth = s.depth := rfl
@[simp] theorem State.setFeedback_ram (v : Word) : (s.setFeedback v).ram = s.ram := rfl
@[simp] theorem State.setFeedback_rsp (v : Word) : (s.setFeedback v).rsp = s.rsp := rfl
@[simp] theorem State.setFeedback_inputs (v : Word) : (s.setFeedback v).inputs = s.inputs := rfl
@[simp] theorem State.setFeedback_responses (v : Word) : (s.setFeedback v).responses = s.responses := rfl
@[simp] theorem State.setFeedback_refusalMark (v : Word) : (s.setFeedback v).refusalMark = s.refusalMark := rfl

@[simp] theorem State.setCurdly_config (v : Word) : (s.setCurdly v).config = s.config := rfl
@[simp] theorem State.setCurdly_status (v : Word) : (s.setCurdly v).status = s.status := rfl
@[simp] theorem State.setCurdly_cursor (v : Word) : (s.setCurdly v).cursor = s.cursor := rfl
@[simp] theorem State.setCurdly_phase (v : Word) : (s.setCurdly v).phase = s.phase := rfl
@[simp] theorem State.setCurdly_incr (v : Word) : (s.setCurdly v).incr = s.incr := rfl
@[simp] theorem State.setCurdly_feedback (v : Word) : (s.setCurdly v).feedback = s.feedback := rfl
@[simp] theorem State.setCurdly_curdly (v : Word) : (s.setCurdly v).curdly = v := rfl
@[simp] theorem State.setCurdly_tgtdly (v : Word) : (s.setCurdly v).tgtdly = s.tgtdly := rfl
@[simp] theorem State.setCurdly_depth (v : Word) : (s.setCurdly v).depth = s.depth := rfl
@[simp] theorem State.setCurdly_ram (v : Word) : (s.setCurdly v).ram = s.ram := rfl
@[simp] theorem State.setCurdly_rsp (v : Word) : (s.setCurdly v).rsp = s.rsp := rfl
@[simp] theorem State.setCurdly_inputs (v : Word) : (s.setCurdly v).inputs = s.inputs := rfl
@[simp] theorem State.setCurdly_responses (v : Word) : (s.setCurdly v).responses = s.responses := rfl
@[simp] theorem State.setCurdly_refusalMark (v : Word) : (s.setCurdly v).refusalMark = s.refusalMark := rfl

@[simp] theorem State.setTgtdly_config (v : Word) : (s.setTgtdly v).config = s.config := rfl
@[simp] theorem State.setTgtdly_status (v : Word) : (s.setTgtdly v).status = s.status := rfl
@[simp] theorem State.setTgtdly_cursor (v : Word) : (s.setTgtdly v).cursor = s.cursor := rfl
@[simp] theorem State.setTgtdly_phase (v : Word) : (s.setTgtdly v).phase = s.phase := rfl
@[simp] theorem State.setTgtdly_incr (v : Word) : (s.setTgtdly v).incr = s.incr := rfl
@[simp] theorem State.setTgtdly_feedback (v : Word) : (s.setTgtdly v).feedback = s.feedback := rfl
@[simp] theorem State.setTgtdly_curdly (v : Word) : (s.setTgtdly v).curdly = s.curdly := rfl
@[simp] theorem State.setTgtdly_tgtdly (v : Word) : (s.setTgtdly v).tgtdly = v := rfl
@[simp] theorem State.setTgtdly_depth (v : Word) : (s.setTgtdly v).depth = s.depth := rfl
@[simp] theorem State.setTgtdly_ram (v : Word) : (s.setTgtdly v).ram = s.ram := rfl
@[simp] theorem State.setTgtdly_rsp (v : Word) : (s.setTgtdly v).rsp = s.rsp := rfl
@[simp] theorem State.setTgtdly_inputs (v : Word) : (s.setTgtdly v).inputs = s.inputs := rfl
@[simp] theorem State.setTgtdly_responses (v : Word) : (s.setTgtdly v).responses = s.responses := rfl
@[simp] theorem State.setTgtdly_refusalMark (v : Word) : (s.setTgtdly v).refusalMark = s.refusalMark := rfl

@[simp] theorem State.setDepth_config (v : Word) : (s.setDepth v).config = s.config := rfl
@[simp] theorem State.setDepth_status (v : Word) : (s.setDepth v).status = s.status := rfl
@[simp] theorem State.setDepth_cursor (v : Word) : (s.setDepth v).cursor = s.cursor := rfl
@[simp] theorem State.setDepth_phase (v : Word) : (s.setDepth v).phase = s.phase := rfl
@[simp] theorem State.setDepth_incr (v : Word) : (s.setDepth v).incr = s.incr := rfl
@[simp] theorem State.setDepth_feedback (v : Word) : (s.setDepth v).feedback = s.feedback := rfl
@[simp] theorem State.setDepth_curdly (v : Word) : (s.setDepth v).curdly = s.curdly := rfl
@[simp] theorem State.setDepth_tgtdly (v : Word) : (s.setDepth v).tgtdly = s.tgtdly := rfl
@[simp] theorem State.setDepth_depth (v : Word) : (s.setDepth v).depth = v := rfl
@[simp] theorem State.setDepth_ram (v : Word) : (s.setDepth v).ram = s.ram := rfl
@[simp] theorem State.setDepth_rsp (v : Word) : (s.setDepth v).rsp = s.rsp := rfl
@[simp] theorem State.setDepth_inputs (v : Word) : (s.setDepth v).inputs = s.inputs := rfl
@[simp] theorem State.setDepth_responses (v : Word) : (s.setDepth v).responses = s.responses := rfl
@[simp] theorem State.setDepth_refusalMark (v : Word) : (s.setDepth v).refusalMark = s.refusalMark := rfl

@[simp] theorem State.setRam_config (v : Memory) : (s.setRam v).config = s.config := rfl
@[simp] theorem State.setRam_status (v : Memory) : (s.setRam v).status = s.status := rfl
@[simp] theorem State.setRam_cursor (v : Memory) : (s.setRam v).cursor = s.cursor := rfl
@[simp] theorem State.setRam_phase (v : Memory) : (s.setRam v).phase = s.phase := rfl
@[simp] theorem State.setRam_incr (v : Memory) : (s.setRam v).incr = s.incr := rfl
@[simp] theorem State.setRam_feedback (v : Memory) : (s.setRam v).feedback = s.feedback := rfl
@[simp] theorem State.setRam_curdly (v : Memory) : (s.setRam v).curdly = s.curdly := rfl
@[simp] theorem State.setRam_tgtdly (v : Memory) : (s.setRam v).tgtdly = s.tgtdly := rfl
@[simp] theorem State.setRam_depth (v : Memory) : (s.setRam v).depth = s.depth := rfl
@[simp] theorem State.setRam_ram (v : Memory) : (s.setRam v).ram = v := rfl
@[simp] theorem State.setRam_rsp (v : Memory) : (s.setRam v).rsp = s.rsp := rfl
@[simp] theorem State.setRam_inputs (v : Memory) : (s.setRam v).inputs = s.inputs := rfl
@[simp] theorem State.setRam_responses (v : Memory) : (s.setRam v).responses = s.responses := rfl
@[simp] theorem State.setRam_refusalMark (v : Memory) : (s.setRam v).refusalMark = s.refusalMark := rfl

@[simp] theorem State.setRsp_config (v : Option Response) : (s.setRsp v).config = s.config := rfl
@[simp] theorem State.setRsp_status (v : Option Response) : (s.setRsp v).status = s.status := rfl
@[simp] theorem State.setRsp_cursor (v : Option Response) : (s.setRsp v).cursor = s.cursor := rfl
@[simp] theorem State.setRsp_phase (v : Option Response) : (s.setRsp v).phase = s.phase := rfl
@[simp] theorem State.setRsp_incr (v : Option Response) : (s.setRsp v).incr = s.incr := rfl
@[simp] theorem State.setRsp_feedback (v : Option Response) : (s.setRsp v).feedback = s.feedback := rfl
@[simp] theorem State.setRsp_curdly (v : Option Response) : (s.setRsp v).curdly = s.curdly := rfl
@[simp] theorem State.setRsp_tgtdly (v : Option Response) : (s.setRsp v).tgtdly = s.tgtdly := rfl
@[simp] theorem State.setRsp_depth (v : Option Response) : (s.setRsp v).depth = s.depth := rfl
@[simp] theorem State.setRsp_ram (v : Option Response) : (s.setRsp v).ram = s.ram := rfl
@[simp] theorem State.setRsp_rsp (v : Option Response) : (s.setRsp v).rsp = v := rfl
@[simp] theorem State.setRsp_inputs (v : Option Response) : (s.setRsp v).inputs = s.inputs := rfl
@[simp] theorem State.setRsp_responses (v : Option Response) : (s.setRsp v).responses = s.responses := rfl
@[simp] theorem State.setRsp_refusalMark (v : Option Response) : (s.setRsp v).refusalMark = s.refusalMark := rfl

@[simp] theorem State.setInputs_config (v : List PortInput) : (s.setInputs v).config = s.config := rfl
@[simp] theorem State.setInputs_status (v : List PortInput) : (s.setInputs v).status = s.status := rfl
@[simp] theorem State.setInputs_cursor (v : List PortInput) : (s.setInputs v).cursor = s.cursor := rfl
@[simp] theorem State.setInputs_phase (v : List PortInput) : (s.setInputs v).phase = s.phase := rfl
@[simp] theorem State.setInputs_incr (v : List PortInput) : (s.setInputs v).incr = s.incr := rfl
@[simp] theorem State.setInputs_feedback (v : List PortInput) : (s.setInputs v).feedback = s.feedback := rfl
@[simp] theorem State.setInputs_curdly (v : List PortInput) : (s.setInputs v).curdly = s.curdly := rfl
@[simp] theorem State.setInputs_tgtdly (v : List PortInput) : (s.setInputs v).tgtdly = s.tgtdly := rfl
@[simp] theorem State.setInputs_depth (v : List PortInput) : (s.setInputs v).depth = s.depth := rfl
@[simp] theorem State.setInputs_ram (v : List PortInput) : (s.setInputs v).ram = s.ram := rfl
@[simp] theorem State.setInputs_rsp (v : List PortInput) : (s.setInputs v).rsp = s.rsp := rfl
@[simp] theorem State.setInputs_inputs (v : List PortInput) : (s.setInputs v).inputs = v := rfl
@[simp] theorem State.setInputs_responses (v : List PortInput) : (s.setInputs v).responses = s.responses := rfl
@[simp] theorem State.setInputs_refusalMark (v : List PortInput) : (s.setInputs v).refusalMark = s.refusalMark := rfl

@[simp] theorem State.setResponses_config (v : List Response) : (s.setResponses v).config = s.config := rfl
@[simp] theorem State.setResponses_status (v : List Response) : (s.setResponses v).status = s.status := rfl
@[simp] theorem State.setResponses_cursor (v : List Response) : (s.setResponses v).cursor = s.cursor := rfl
@[simp] theorem State.setResponses_phase (v : List Response) : (s.setResponses v).phase = s.phase := rfl
@[simp] theorem State.setResponses_incr (v : List Response) : (s.setResponses v).incr = s.incr := rfl
@[simp] theorem State.setResponses_feedback (v : List Response) : (s.setResponses v).feedback = s.feedback := rfl
@[simp] theorem State.setResponses_curdly (v : List Response) : (s.setResponses v).curdly = s.curdly := rfl
@[simp] theorem State.setResponses_tgtdly (v : List Response) : (s.setResponses v).tgtdly = s.tgtdly := rfl
@[simp] theorem State.setResponses_depth (v : List Response) : (s.setResponses v).depth = s.depth := rfl
@[simp] theorem State.setResponses_ram (v : List Response) : (s.setResponses v).ram = s.ram := rfl
@[simp] theorem State.setResponses_rsp (v : List Response) : (s.setResponses v).rsp = s.rsp := rfl
@[simp] theorem State.setResponses_inputs (v : List Response) : (s.setResponses v).inputs = s.inputs := rfl
@[simp] theorem State.setResponses_responses (v : List Response) : (s.setResponses v).responses = v := rfl
@[simp] theorem State.setResponses_refusalMark (v : List Response) : (s.setResponses v).refusalMark = s.refusalMark := rfl

@[simp] theorem State.setRefusalMark_config (v : Bool) : (s.setRefusalMark v).config = s.config := rfl
@[simp] theorem State.setRefusalMark_status (v : Bool) : (s.setRefusalMark v).status = s.status := rfl
@[simp] theorem State.setRefusalMark_cursor (v : Bool) : (s.setRefusalMark v).cursor = s.cursor := rfl
@[simp] theorem State.setRefusalMark_phase (v : Bool) : (s.setRefusalMark v).phase = s.phase := rfl
@[simp] theorem State.setRefusalMark_incr (v : Bool) : (s.setRefusalMark v).incr = s.incr := rfl
@[simp] theorem State.setRefusalMark_feedback (v : Bool) : (s.setRefusalMark v).feedback = s.feedback := rfl
@[simp] theorem State.setRefusalMark_curdly (v : Bool) : (s.setRefusalMark v).curdly = s.curdly := rfl
@[simp] theorem State.setRefusalMark_tgtdly (v : Bool) : (s.setRefusalMark v).tgtdly = s.tgtdly := rfl
@[simp] theorem State.setRefusalMark_depth (v : Bool) : (s.setRefusalMark v).depth = s.depth := rfl
@[simp] theorem State.setRefusalMark_ram (v : Bool) : (s.setRefusalMark v).ram = s.ram := rfl
@[simp] theorem State.setRefusalMark_rsp (v : Bool) : (s.setRefusalMark v).rsp = s.rsp := rfl
@[simp] theorem State.setRefusalMark_inputs (v : Bool) : (s.setRefusalMark v).inputs = s.inputs := rfl
@[simp] theorem State.setRefusalMark_responses (v : Bool) : (s.setRefusalMark v).responses = s.responses := rfl
@[simp] theorem State.setRefusalMark_refusalMark (v : Bool) : (s.setRefusalMark v).refusalMark = v := rfl

end Sys2Proof.Machine
end

