-- ==== Sys2Proof/Laws/Ops.lean ====
section
/-! SUPPORT. For each shared operation, what it does to each field, so that no proof unfolds it. -/

namespace Sys2Proof.Machine

variable (s : State)

/-! `answer` (R81): only the response. -/

@[simp] theorem State.answer_config (res : Word) : (s.answer res).config = s.config := rfl
@[simp] theorem State.answer_status (res : Word) : (s.answer res).status = s.status := rfl
@[simp] theorem State.answer_cursor (res : Word) : (s.answer res).cursor = s.cursor := rfl
@[simp] theorem State.answer_phase (res : Word) : (s.answer res).phase = s.phase := rfl
@[simp] theorem State.answer_incr (res : Word) : (s.answer res).incr = s.incr := rfl
@[simp] theorem State.answer_feedback (res : Word) : (s.answer res).feedback = s.feedback := rfl
@[simp] theorem State.answer_curdly (res : Word) : (s.answer res).curdly = s.curdly := rfl
@[simp] theorem State.answer_tgtdly (res : Word) : (s.answer res).tgtdly = s.tgtdly := rfl
@[simp] theorem State.answer_depth (res : Word) : (s.answer res).depth = s.depth := rfl
@[simp] theorem State.answer_ram (res : Word) : (s.answer res).ram = s.ram := rfl
@[simp] theorem State.answer_rsp (res : Word) : (s.answer res).rsp = some ⟨.ok, res⟩ := rfl
@[simp] theorem State.answer_inputs (res : Word) : (s.answer res).inputs = s.inputs := rfl
@[simp] theorem State.answer_responses (res : Word) : (s.answer res).responses = s.responses := rfl
@[simp] theorem State.answer_refusalMark (res : Word) :
    (s.answer res).refusalMark = s.refusalMark := rfl

/-! `raise` (R15, R33): only STATUS, which gains one flag. -/

@[simp] theorem State.raise_config (f : Flag) : (s.raise f).config = s.config := rfl
@[simp] theorem State.raise_status (f : Flag) : (s.raise f).status = s.status ||| f.word := rfl
@[simp] theorem State.raise_cursor (f : Flag) : (s.raise f).cursor = s.cursor := rfl
@[simp] theorem State.raise_phase (f : Flag) : (s.raise f).phase = s.phase := rfl
@[simp] theorem State.raise_incr (f : Flag) : (s.raise f).incr = s.incr := rfl
@[simp] theorem State.raise_feedback (f : Flag) : (s.raise f).feedback = s.feedback := rfl
@[simp] theorem State.raise_curdly (f : Flag) : (s.raise f).curdly = s.curdly := rfl
@[simp] theorem State.raise_tgtdly (f : Flag) : (s.raise f).tgtdly = s.tgtdly := rfl
@[simp] theorem State.raise_depth (f : Flag) : (s.raise f).depth = s.depth := rfl
@[simp] theorem State.raise_ram (f : Flag) : (s.raise f).ram = s.ram := rfl
@[simp] theorem State.raise_rsp (f : Flag) : (s.raise f).rsp = s.rsp := rfl
@[simp] theorem State.raise_inputs (f : Flag) : (s.raise f).inputs = s.inputs := rfl
@[simp] theorem State.raise_responses (f : Flag) : (s.raise f).responses = s.responses := rfl
@[simp] theorem State.raise_refusalMark (f : Flag) : (s.raise f).refusalMark = s.refusalMark := rfl

/-! `raiseIf`: `raise` when the case occurred. -/

@[simp] theorem State.raiseIf_config (b : Bool) (f : Flag) :
    (s.raiseIf b f).config = s.config := by cases b <;> rfl
@[simp] theorem State.raiseIf_status (b : Bool) (f : Flag) :
    (s.raiseIf b f).status = if b then s.status ||| f.word else s.status := by cases b <;> rfl
@[simp] theorem State.raiseIf_cursor (b : Bool) (f : Flag) :
    (s.raiseIf b f).cursor = s.cursor := by cases b <;> rfl
@[simp] theorem State.raiseIf_phase (b : Bool) (f : Flag) :
    (s.raiseIf b f).phase = s.phase := by cases b <;> rfl
@[simp] theorem State.raiseIf_incr (b : Bool) (f : Flag) :
    (s.raiseIf b f).incr = s.incr := by cases b <;> rfl
@[simp] theorem State.raiseIf_feedback (b : Bool) (f : Flag) :
    (s.raiseIf b f).feedback = s.feedback := by cases b <;> rfl
@[simp] theorem State.raiseIf_curdly (b : Bool) (f : Flag) :
    (s.raiseIf b f).curdly = s.curdly := by cases b <;> rfl
@[simp] theorem State.raiseIf_tgtdly (b : Bool) (f : Flag) :
    (s.raiseIf b f).tgtdly = s.tgtdly := by cases b <;> rfl
@[simp] theorem State.raiseIf_depth (b : Bool) (f : Flag) :
    (s.raiseIf b f).depth = s.depth := by cases b <;> rfl
@[simp] theorem State.raiseIf_ram (b : Bool) (f : Flag) :
    (s.raiseIf b f).ram = s.ram := by cases b <;> rfl
@[simp] theorem State.raiseIf_rsp (b : Bool) (f : Flag) :
    (s.raiseIf b f).rsp = s.rsp := by cases b <;> rfl
@[simp] theorem State.raiseIf_inputs (b : Bool) (f : Flag) :
    (s.raiseIf b f).inputs = s.inputs := by cases b <;> rfl
@[simp] theorem State.raiseIf_responses (b : Bool) (f : Flag) :
    (s.raiseIf b f).responses = s.responses := by cases b <;> rfl
@[simp] theorem State.raiseIf_refusalMark (b : Bool) (f : Flag) :
    (s.raiseIf b f).refusalMark = s.refusalMark := by cases b <;> rfl

/-! `refuse` (R220). -/

@[simp] theorem State.refuse_config : (s.refuse).config = s.config := rfl
@[simp] theorem State.refuse_status : (s.refuse).status = s.status ||| Flag.illcmd.word := rfl
@[simp] theorem State.refuse_cursor : (s.refuse).cursor = s.cursor := rfl
@[simp] theorem State.refuse_phase : (s.refuse).phase = s.phase := rfl
@[simp] theorem State.refuse_incr : (s.refuse).incr = s.incr := rfl
@[simp] theorem State.refuse_feedback : (s.refuse).feedback = s.feedback := rfl
@[simp] theorem State.refuse_curdly : (s.refuse).curdly = s.curdly := rfl
@[simp] theorem State.refuse_tgtdly : (s.refuse).tgtdly = s.tgtdly := rfl
@[simp] theorem State.refuse_depth : (s.refuse).depth = s.depth := rfl
@[simp] theorem State.refuse_ram : (s.refuse).ram = s.ram := rfl
@[simp] theorem State.refuse_rsp : (s.refuse).rsp = some ⟨.illegal, 0⟩ := rfl
@[simp] theorem State.refuse_inputs : (s.refuse).inputs = s.inputs := rfl
@[simp] theorem State.refuse_responses : (s.refuse).responses = s.responses := rfl
@[simp] theorem State.refuse_refusalMark : (s.refuse).refusalMark = true := rfl

/-! `resetAll` (R240). -/

@[simp] theorem State.resetAll_config : (s.resetAll).config = s.config := rfl
@[simp] theorem State.resetAll_status : (s.resetAll).status = 0 := rfl
@[simp] theorem State.resetAll_cursor : (s.resetAll).cursor = 0 := rfl
@[simp] theorem State.resetAll_phase : (s.resetAll).phase = 0 := rfl
@[simp] theorem State.resetAll_incr : (s.resetAll).incr = 0 := rfl
@[simp] theorem State.resetAll_feedback : (s.resetAll).feedback = 0 := rfl
@[simp] theorem State.resetAll_curdly : (s.resetAll).curdly = 0 := rfl
@[simp] theorem State.resetAll_tgtdly : (s.resetAll).tgtdly = 0 := rfl
@[simp] theorem State.resetAll_depth : (s.resetAll).depth = 0 := rfl
@[simp] theorem State.resetAll_ram : (s.resetAll).ram = [] := rfl
@[simp] theorem State.resetAll_rsp : (s.resetAll).rsp = none := rfl
@[simp] theorem State.resetAll_inputs : (s.resetAll).inputs = s.inputs := rfl
@[simp] theorem State.resetAll_responses : (s.resetAll).responses = [] := rfl
@[simp] theorem State.resetAll_refusalMark : (s.resetAll).refusalMark = false := rfl

/-! `deliver` (R80). -/

@[simp] theorem State.deliver_config (r : Response) : (s.deliver r).config = s.config := rfl
@[simp] theorem State.deliver_status (r : Response) : (s.deliver r).status = s.status := rfl
@[simp] theorem State.deliver_cursor (r : Response) : (s.deliver r).cursor = s.cursor := rfl
@[simp] theorem State.deliver_phase (r : Response) : (s.deliver r).phase = s.phase := rfl
@[simp] theorem State.deliver_incr (r : Response) : (s.deliver r).incr = s.incr := rfl
@[simp] theorem State.deliver_feedback (r : Response) : (s.deliver r).feedback = s.feedback := rfl
@[simp] theorem State.deliver_curdly (r : Response) : (s.deliver r).curdly = s.curdly := rfl
@[simp] theorem State.deliver_tgtdly (r : Response) : (s.deliver r).tgtdly = s.tgtdly := rfl
@[simp] theorem State.deliver_depth (r : Response) : (s.deliver r).depth = s.depth := rfl
@[simp] theorem State.deliver_ram (r : Response) : (s.deliver r).ram = s.ram := rfl
@[simp] theorem State.deliver_rsp (r : Response) : (s.deliver r).rsp = none := rfl
@[simp] theorem State.deliver_inputs (r : Response) : (s.deliver r).inputs = s.inputs := rfl
@[simp] theorem State.deliver_responses (r : Response) :
    (s.deliver r).responses = s.responses ++ [r] := rfl
@[simp] theorem State.deliver_refusalMark (r : Response) :
    (s.deliver r).refusalMark = s.refusalMark := rfl

/-! `ramWrite` (R63). -/

@[simp] theorem State.ramWrite_config (i : Nat) (v : Word) :
    (s.ramWrite i v).config = s.config := rfl
@[simp] theorem State.ramWrite_status (i : Nat) (v : Word) :
    (s.ramWrite i v).status = s.status := rfl
@[simp] theorem State.ramWrite_cursor (i : Nat) (v : Word) :
    (s.ramWrite i v).cursor = s.cursor := rfl
@[simp] theorem State.ramWrite_phase (i : Nat) (v : Word) : (s.ramWrite i v).phase = s.phase := rfl
@[simp] theorem State.ramWrite_incr (i : Nat) (v : Word) : (s.ramWrite i v).incr = s.incr := rfl
@[simp] theorem State.ramWrite_feedback (i : Nat) (v : Word) :
    (s.ramWrite i v).feedback = s.feedback := rfl
@[simp] theorem State.ramWrite_curdly (i : Nat) (v : Word) :
    (s.ramWrite i v).curdly = s.curdly := rfl
@[simp] theorem State.ramWrite_tgtdly (i : Nat) (v : Word) :
    (s.ramWrite i v).tgtdly = s.tgtdly := rfl
@[simp] theorem State.ramWrite_depth (i : Nat) (v : Word) : (s.ramWrite i v).depth = s.depth := rfl
@[simp] theorem State.ramWrite_ram (i : Nat) (v : Word) :
    (s.ramWrite i v).ram = s.ram.write i v := rfl
@[simp] theorem State.ramWrite_rsp (i : Nat) (v : Word) : (s.ramWrite i v).rsp = s.rsp := rfl
@[simp] theorem State.ramWrite_inputs (i : Nat) (v : Word) :
    (s.ramWrite i v).inputs = s.inputs := rfl
@[simp] theorem State.ramWrite_responses (i : Nat) (v : Word) :
    (s.ramWrite i v).responses = s.responses := rfl
@[simp] theorem State.ramWrite_refusalMark (i : Nat) (v : Word) :
    (s.ramWrite i v).refusalMark = s.refusalMark := rfl

/-! `delayWrite` (R140). -/

@[simp] theorem State.delayWrite_config (v : Word) : (s.delayWrite v).config = s.config := rfl
@[simp] theorem State.delayWrite_status (v : Word) : (s.delayWrite v).status = s.status := rfl
@[simp] theorem State.delayWrite_cursor (v : Word) : (s.delayWrite v).cursor = s.cursor + 1 := rfl
@[simp] theorem State.delayWrite_phase (v : Word) : (s.delayWrite v).phase = s.phase := rfl
@[simp] theorem State.delayWrite_incr (v : Word) : (s.delayWrite v).incr = s.incr := rfl
@[simp] theorem State.delayWrite_feedback (v : Word) : (s.delayWrite v).feedback = s.feedback := rfl
@[simp] theorem State.delayWrite_curdly (v : Word) : (s.delayWrite v).curdly = s.curdly := rfl
@[simp] theorem State.delayWrite_tgtdly (v : Word) : (s.delayWrite v).tgtdly = s.tgtdly := rfl
@[simp] theorem State.delayWrite_depth (v : Word) : (s.delayWrite v).depth = s.depth := rfl
@[simp] theorem State.delayWrite_ram (v : Word) :
    (s.delayWrite v).ram = s.ram.write (s.ramIndex (s.cursor + 1)) v := rfl
@[simp] theorem State.delayWrite_rsp (v : Word) : (s.delayWrite v).rsp = s.rsp := rfl
@[simp] theorem State.delayWrite_inputs (v : Word) : (s.delayWrite v).inputs = s.inputs := rfl
@[simp] theorem State.delayWrite_responses (v : Word) :
    (s.delayWrite v).responses = s.responses := rfl
@[simp] theorem State.delayWrite_refusalMark (v : Word) :
    (s.delayWrite v).refusalMark = s.refusalMark := rfl

/-! `delayRead` (R142): only ALIAS. -/

@[simp] theorem State.delayRead_config (d : Word) :
    (s.delayRead d).config = s.config := by simp [State.delayRead]
@[simp] theorem State.delayRead_status (d : Word) :
    (s.delayRead d).status = if !delayInContract s.config d then s.status ||| Flag.alias_.word else s.status := by simp [State.delayRead]
@[simp] theorem State.delayRead_cursor (d : Word) :
    (s.delayRead d).cursor = s.cursor := by simp [State.delayRead]
@[simp] theorem State.delayRead_phase (d : Word) :
    (s.delayRead d).phase = s.phase := by simp [State.delayRead]
@[simp] theorem State.delayRead_incr (d : Word) :
    (s.delayRead d).incr = s.incr := by simp [State.delayRead]
@[simp] theorem State.delayRead_feedback (d : Word) :
    (s.delayRead d).feedback = s.feedback := by simp [State.delayRead]
@[simp] theorem State.delayRead_curdly (d : Word) :
    (s.delayRead d).curdly = s.curdly := by simp [State.delayRead]
@[simp] theorem State.delayRead_tgtdly (d : Word) :
    (s.delayRead d).tgtdly = s.tgtdly := by simp [State.delayRead]
@[simp] theorem State.delayRead_depth (d : Word) :
    (s.delayRead d).depth = s.depth := by simp [State.delayRead]
@[simp] theorem State.delayRead_ram (d : Word) :
    (s.delayRead d).ram = s.ram := by simp [State.delayRead]
@[simp] theorem State.delayRead_rsp (d : Word) :
    (s.delayRead d).rsp = s.rsp := by simp [State.delayRead]
@[simp] theorem State.delayRead_inputs (d : Word) :
    (s.delayRead d).inputs = s.inputs := by simp [State.delayRead]
@[simp] theorem State.delayRead_responses (d : Word) :
    (s.delayRead d).responses = s.responses := by simp [State.delayRead]
@[simp] theorem State.delayRead_refusalMark (d : Word) :
    (s.delayRead d).refusalMark = s.refusalMark := by simp [State.delayRead]

/-! `setStep` (R160): only INCR. -/

@[simp] theorem State.setStep_config (r : Word) : (s.setStep r).config = s.config := rfl
@[simp] theorem State.setStep_status (r : Word) : (s.setStep r).status = s.status := rfl
@[simp] theorem State.setStep_cursor (r : Word) : (s.setStep r).cursor = s.cursor := rfl
@[simp] theorem State.setStep_phase (r : Word) : (s.setStep r).phase = s.phase := rfl
@[simp] theorem State.setStep_incr (r : Word) : (s.setStep r).incr = Operand.stepWord r := rfl
@[simp] theorem State.setStep_feedback (r : Word) : (s.setStep r).feedback = s.feedback := rfl
@[simp] theorem State.setStep_curdly (r : Word) : (s.setStep r).curdly = s.curdly := rfl
@[simp] theorem State.setStep_tgtdly (r : Word) : (s.setStep r).tgtdly = s.tgtdly := rfl
@[simp] theorem State.setStep_depth (r : Word) : (s.setStep r).depth = s.depth := rfl
@[simp] theorem State.setStep_ram (r : Word) : (s.setStep r).ram = s.ram := rfl
@[simp] theorem State.setStep_rsp (r : Word) : (s.setStep r).rsp = s.rsp := rfl
@[simp] theorem State.setStep_inputs (r : Word) : (s.setStep r).inputs = s.inputs := rfl
@[simp] theorem State.setStep_responses (r : Word) : (s.setStep r).responses = s.responses := rfl
@[simp] theorem State.setStep_refusalMark (r : Word) :
    (s.setStep r).refusalMark = s.refusalMark := rfl

/-! `setPeriod` (R163): INCR and PERCLAMP. -/

@[simp] theorem State.setPeriod_config (ms : Word) :
    (s.setPeriod ms).config = s.config := by simp [State.setPeriod]
@[simp] theorem State.setPeriod_status (ms : Word) :
    (s.setPeriod ms).status = if periodClamped ms then s.status ||| Flag.perclamp.word else s.status := by simp [State.setPeriod]
@[simp] theorem State.setPeriod_cursor (ms : Word) :
    (s.setPeriod ms).cursor = s.cursor := by simp [State.setPeriod]
@[simp] theorem State.setPeriod_phase (ms : Word) :
    (s.setPeriod ms).phase = s.phase := by simp [State.setPeriod]
@[simp] theorem State.setPeriod_incr (ms : Word) :
    (s.setPeriod ms).incr = Operand.stepWord (F32.div pscale (if periodClamped ms then c01 else ms)) := by simp [State.setPeriod]
@[simp] theorem State.setPeriod_feedback (ms : Word) :
    (s.setPeriod ms).feedback = s.feedback := by simp [State.setPeriod]
@[simp] theorem State.setPeriod_curdly (ms : Word) :
    (s.setPeriod ms).curdly = s.curdly := by simp [State.setPeriod]
@[simp] theorem State.setPeriod_tgtdly (ms : Word) :
    (s.setPeriod ms).tgtdly = s.tgtdly := by simp [State.setPeriod]
@[simp] theorem State.setPeriod_depth (ms : Word) :
    (s.setPeriod ms).depth = s.depth := by simp [State.setPeriod]
@[simp] theorem State.setPeriod_ram (ms : Word) :
    (s.setPeriod ms).ram = s.ram := by simp [State.setPeriod]
@[simp] theorem State.setPeriod_rsp (ms : Word) :
    (s.setPeriod ms).rsp = s.rsp := by simp [State.setPeriod]
@[simp] theorem State.setPeriod_inputs (ms : Word) :
    (s.setPeriod ms).inputs = s.inputs := by simp [State.setPeriod]
@[simp] theorem State.setPeriod_responses (ms : Word) :
    (s.setPeriod ms).responses = s.responses := by simp [State.setPeriod]
@[simp] theorem State.setPeriod_refusalMark (ms : Word) :
    (s.setPeriod ms).refusalMark = s.refusalMark := by simp [State.setPeriod]

/-! `advancePhase` (R165): only PHASE. -/

@[simp] theorem State.advancePhase_config : (s.advancePhase).config = s.config := rfl
@[simp] theorem State.advancePhase_status : (s.advancePhase).status = s.status := rfl
@[simp] theorem State.advancePhase_cursor : (s.advancePhase).cursor = s.cursor := rfl
@[simp] theorem State.advancePhase_phase : (s.advancePhase).phase = s.phase + s.incr := rfl
@[simp] theorem State.advancePhase_incr : (s.advancePhase).incr = s.incr := rfl
@[simp] theorem State.advancePhase_feedback : (s.advancePhase).feedback = s.feedback := rfl
@[simp] theorem State.advancePhase_curdly : (s.advancePhase).curdly = s.curdly := rfl
@[simp] theorem State.advancePhase_tgtdly : (s.advancePhase).tgtdly = s.tgtdly := rfl
@[simp] theorem State.advancePhase_depth : (s.advancePhase).depth = s.depth := rfl
@[simp] theorem State.advancePhase_ram : (s.advancePhase).ram = s.ram := rfl
@[simp] theorem State.advancePhase_rsp : (s.advancePhase).rsp = s.rsp := rfl
@[simp] theorem State.advancePhase_inputs : (s.advancePhase).inputs = s.inputs := rfl
@[simp] theorem State.advancePhase_responses : (s.advancePhase).responses = s.responses := rfl
@[simp] theorem State.advancePhase_refusalMark : (s.advancePhase).refusalMark = s.refusalMark := rfl

/-! `smooth` (R180): only CURDLY. -/

@[simp] theorem State.smooth_config : (s.smooth).config = s.config := rfl
@[simp] theorem State.smooth_status : (s.smooth).status = s.status := rfl
@[simp] theorem State.smooth_cursor : (s.smooth).cursor = s.cursor := rfl
@[simp] theorem State.smooth_phase : (s.smooth).phase = s.phase := rfl
@[simp] theorem State.smooth_incr : (s.smooth).incr = s.incr := rfl
@[simp] theorem State.smooth_feedback : (s.smooth).feedback = s.feedback := rfl
@[simp] theorem State.smooth_curdly : (s.smooth).curdly = smoothed s.curdly s.tgtdly := rfl
@[simp] theorem State.smooth_tgtdly : (s.smooth).tgtdly = s.tgtdly := rfl
@[simp] theorem State.smooth_depth : (s.smooth).depth = s.depth := rfl
@[simp] theorem State.smooth_ram : (s.smooth).ram = s.ram := rfl
@[simp] theorem State.smooth_rsp : (s.smooth).rsp = s.rsp := rfl
@[simp] theorem State.smooth_inputs : (s.smooth).inputs = s.inputs := rfl
@[simp] theorem State.smooth_responses : (s.smooth).responses = s.responses := rfl
@[simp] theorem State.smooth_refusalMark : (s.smooth).refusalMark = s.refusalMark := rfl

/-! `echoSetTarget` (R191): TGTDLY, or TGTIGN. -/

@[simp] theorem State.echoSetTarget_config (p1 : Word) :
    (s.echoSetTarget p1).config = s.config := by unfold State.echoSetTarget; split <;> rfl
@[simp] theorem State.echoSetTarget_status (p1 : Word) :
    (s.echoSetTarget p1).status = if targetInRange s.config (targetSamples p1) then s.status else s.status ||| Flag.tgtign.word := by unfold State.echoSetTarget; split <;> rfl
@[simp] theorem State.echoSetTarget_cursor (p1 : Word) :
    (s.echoSetTarget p1).cursor = s.cursor := by unfold State.echoSetTarget; split <;> rfl
@[simp] theorem State.echoSetTarget_phase (p1 : Word) :
    (s.echoSetTarget p1).phase = s.phase := by unfold State.echoSetTarget; split <;> rfl
@[simp] theorem State.echoSetTarget_incr (p1 : Word) :
    (s.echoSetTarget p1).incr = s.incr := by unfold State.echoSetTarget; split <;> rfl
@[simp] theorem State.echoSetTarget_feedback (p1 : Word) :
    (s.echoSetTarget p1).feedback = s.feedback := by unfold State.echoSetTarget; split <;> rfl
@[simp] theorem State.echoSetTarget_curdly (p1 : Word) :
    (s.echoSetTarget p1).curdly = s.curdly := by unfold State.echoSetTarget; split <;> rfl
@[simp] theorem State.echoSetTarget_tgtdly (p1 : Word) :
    (s.echoSetTarget p1).tgtdly = if targetInRange s.config (targetSamples p1) then targetSamples p1 else s.tgtdly := by unfold State.echoSetTarget; split <;> rfl
@[simp] theorem State.echoSetTarget_depth (p1 : Word) :
    (s.echoSetTarget p1).depth = s.depth := by unfold State.echoSetTarget; split <;> rfl
@[simp] theorem State.echoSetTarget_ram (p1 : Word) :
    (s.echoSetTarget p1).ram = s.ram := by unfold State.echoSetTarget; split <;> rfl
@[simp] theorem State.echoSetTarget_rsp (p1 : Word) :
    (s.echoSetTarget p1).rsp = s.rsp := by unfold State.echoSetTarget; split <;> rfl
@[simp] theorem State.echoSetTarget_inputs (p1 : Word) :
    (s.echoSetTarget p1).inputs = s.inputs := by unfold State.echoSetTarget; split <;> rfl
@[simp] theorem State.echoSetTarget_responses (p1 : Word) :
    (s.echoSetTarget p1).responses = s.responses := by unfold State.echoSetTarget; split <;> rfl
@[simp] theorem State.echoSetTarget_refusalMark (p1 : Word) :
    (s.echoSetTarget p1).refusalMark = s.refusalMark := by unfold State.echoSetTarget; split <;> rfl

/-! `echoInit` (R190): TGTDLY, INCR, FEEDBACK and flags. -/

@[simp] theorem State.echoInit_config (p1 p3 p4 : Word) :
    (s.echoInit p1 p3 p4).config = s.config := by simp [State.echoInit]
@[simp] theorem State.echoInit_status (p1 p3 p4 : Word) :
    (s.echoInit p1 p3 p4).status = ((s.echoSetTarget p1).setPeriod (F32.mul p3 c4)).status ||| Flag.initd.word := by simp [State.echoInit]
@[simp] theorem State.echoInit_cursor (p1 p3 p4 : Word) :
    (s.echoInit p1 p3 p4).cursor = s.cursor := by simp [State.echoInit]
@[simp] theorem State.echoInit_phase (p1 p3 p4 : Word) :
    (s.echoInit p1 p3 p4).phase = s.phase := by simp [State.echoInit]
@[simp] theorem State.echoInit_incr (p1 p3 p4 : Word) :
    (s.echoInit p1 p3 p4).incr = (s.setPeriod (F32.mul p3 c4)).incr := by simp [State.echoInit]
@[simp] theorem State.echoInit_feedback (p1 p3 p4 : Word) :
    (s.echoInit p1 p3 p4).feedback = p4 := by simp [State.echoInit]
@[simp] theorem State.echoInit_curdly (p1 p3 p4 : Word) :
    (s.echoInit p1 p3 p4).curdly = s.curdly := by simp [State.echoInit]
@[simp] theorem State.echoInit_tgtdly (p1 p3 p4 : Word) :
    (s.echoInit p1 p3 p4).tgtdly = if targetInRange s.config (targetSamples p1) then targetSamples p1 else s.tgtdly := by simp [State.echoInit]
@[simp] theorem State.echoInit_depth (p1 p3 p4 : Word) :
    (s.echoInit p1 p3 p4).depth = s.depth := by simp [State.echoInit]
@[simp] theorem State.echoInit_ram (p1 p3 p4 : Word) :
    (s.echoInit p1 p3 p4).ram = s.ram := by simp [State.echoInit]
@[simp] theorem State.echoInit_rsp (p1 p3 p4 : Word) :
    (s.echoInit p1 p3 p4).rsp = s.rsp := by simp [State.echoInit]
@[simp] theorem State.echoInit_inputs (p1 p3 p4 : Word) :
    (s.echoInit p1 p3 p4).inputs = s.inputs := by simp [State.echoInit]
@[simp] theorem State.echoInit_responses (p1 p3 p4 : Word) :
    (s.echoInit p1 p3 p4).responses = s.responses := by simp [State.echoInit]
@[simp] theorem State.echoInit_refusalMark (p1 p3 p4 : Word) :
    (s.echoInit p1 p3 p4).refusalMark = s.refusalMark := by simp [State.echoInit]

/-! `echoStep` (R195): CURSOR, one RAM word and ALIAS. -/

@[simp] theorem State.echoStep_config (x : Word) :
    (s.echoStep x).config = s.config := by simp [State.echoStep]
@[simp] theorem State.echoStep_status (x : Word) :
    (s.echoStep x).status = (s.delayRead s.echoTap).status := by simp [State.echoStep]
@[simp] theorem State.echoStep_cursor (x : Word) :
    (s.echoStep x).cursor = s.cursor + 1 := by simp [State.echoStep]
@[simp] theorem State.echoStep_phase (x : Word) :
    (s.echoStep x).phase = s.phase := by simp [State.echoStep]
@[simp] theorem State.echoStep_incr (x : Word) :
    (s.echoStep x).incr = s.incr := by simp [State.echoStep]
@[simp] theorem State.echoStep_feedback (x : Word) :
    (s.echoStep x).feedback = s.feedback := by simp [State.echoStep]
@[simp] theorem State.echoStep_curdly (x : Word) :
    (s.echoStep x).curdly = s.curdly := by simp [State.echoStep]
@[simp] theorem State.echoStep_tgtdly (x : Word) :
    (s.echoStep x).tgtdly = s.tgtdly := by simp [State.echoStep]
@[simp] theorem State.echoStep_depth (x : Word) :
    (s.echoStep x).depth = s.depth := by simp [State.echoStep]
@[simp] theorem State.echoStep_ram (x : Word) :
    (s.echoStep x).ram = s.ram.write (s.ramIndex (s.cursor + 1)) (s.echoWritten x) := by simp [State.echoStep, State.ramIndex]
@[simp] theorem State.echoStep_rsp (x : Word) :
    (s.echoStep x).rsp = s.rsp := by simp [State.echoStep]
@[simp] theorem State.echoStep_inputs (x : Word) :
    (s.echoStep x).inputs = s.inputs := by simp [State.echoStep]
@[simp] theorem State.echoStep_responses (x : Word) :
    (s.echoStep x).responses = s.responses := by simp [State.echoStep]
@[simp] theorem State.echoStep_refusalMark (x : Word) :
    (s.echoStep x).refusalMark = s.refusalMark := by simp [State.echoStep]

/-! `writeReg` (R212): only the named register. -/

@[simp] theorem State.writeReg_config (r : Reg) (v : Word) :
    (s.writeReg r v).config = s.config := by cases r <;> rfl
@[simp] theorem State.writeReg_ram (r : Reg) (v : Word) :
    (s.writeReg r v).ram = s.ram := by cases r <;> rfl
@[simp] theorem State.writeReg_rsp (r : Reg) (v : Word) :
    (s.writeReg r v).rsp = s.rsp := by cases r <;> rfl
@[simp] theorem State.writeReg_inputs (r : Reg) (v : Word) :
    (s.writeReg r v).inputs = s.inputs := by cases r <;> rfl
@[simp] theorem State.writeReg_responses (r : Reg) (v : Word) :
    (s.writeReg r v).responses = s.responses := by cases r <;> rfl
@[simp] theorem State.writeReg_refusalMark (r : Reg) (v : Word) :
    (s.writeReg r v).refusalMark = s.refusalMark := by cases r <;> rfl

/-- RDREG of a register that WRREG has just written: the value, or for STATUS the flags left. -/
theorem State.readReg_writeReg_same (r : Reg) (v : Word) (h : r ≠ .cfg) :
    (s.writeReg r v).readReg r = if r = .status then clearedStatus s.status v else v := by
  cases r <;> first | rfl | exact absurd rfl h

/-- A register write changes no other register. -/
theorem State.readReg_writeReg_other {r r' : Reg} (v : Word) (h : r' ≠ r) :
    (s.writeReg r v).readReg r' = s.readReg r' := by
  cases r <;> cases r' <;> first | rfl | exact absurd rfl h

/-- A masked position is an index of the RAM: R62's callers pass no other. -/
theorem State.ramIndex_lt (w : Word) : s.ramIndex w < s.config.capacity := by
  have hpos : 0 < s.config.capacity := Nat.two_pow_pos _
  have hle : s.config.capacity ≤ 2 ^ 24 :=
    Nat.pow_le_pow_right (by decide) s.config.legal.2.1
  have h2 : s.config.mask.toNat = s.config.capacity - 1 := by
    simp only [Config.mask, BitVec.toNat_ofNat]
    omega
  have h1 : s.ramIndex w ≤ s.config.mask.toNat := by
    simp only [State.ramIndex, BitVec.toNat_and]
    exact Nat.and_le_right
  omega

/-- The position modulo N: `& MASK` is the remainder by the capacity (R35, R140). -/
theorem State.ramIndex_eq_mod (w : Word) : s.ramIndex w = w.toNat % s.config.capacity := by
  have hle : s.config.capacity ≤ 2 ^ 24 :=
    Nat.pow_le_pow_right (by decide) s.config.legal.2.1
  have hpos : 0 < s.config.capacity := Nat.two_pow_pos _
  have h2 : s.config.mask.toNat = s.config.capacity - 1 := by
    simp only [Config.mask, BitVec.toNat_ofNat]
    omega
  simp only [State.ramIndex, BitVec.toNat_and, h2]
  exact Nat.and_two_pow_sub_one_eq_mod _ _

/-- The ROM index of a sine is below STEPS, so that the entry after it exists (R64, R168). -/
theorem sineIndex_lt (c : Config) (now : Word) : sineIndex c now < c.steps := by
  have h := c.legal
  have hk : 32 - c.qsinLog2 + c.qsinLog2 = 32 := by omega
  have hlt : (foldedPhase now).toNat < 2 ^ (32 - c.qsinLog2) * 2 ^ c.qsinLog2 := by
    rw [← Nat.pow_add, hk]
    exact (foldedPhase now).isLt
  simp only [sineIndex, Config.steps, BitVec.toNat_ushiftRight, Nat.shiftRight_eq_div_pow]
  exact Nat.div_lt_of_lt_mul hlt

/-- The write of a sample keeps the RAM's canonical form and its range. -/
theorem State.inv_ram_write {s : State} (w v : Word) (hwf : Memory.wf s.ram = true)
    (hin : Memory.within s.config.capacity s.ram = true) :
    Memory.wf (s.ram.write (s.ramIndex w) v) = true ∧
      Memory.within s.config.capacity (s.ram.write (s.ramIndex w) v) = true :=
  ⟨Memory.wf_write _ _ hwf, Memory.within_write _ (s.ramIndex_lt w) hin⟩

/-- Every read after a DelayWrite: the sample at its slot, and what was there elsewhere. -/
theorem State.ramRead_delayWrite {s : State} (v : Word) (h : Memory.wf s.ram = true) (i : Nat) :
    (s.delayWrite v).ramRead i = if i = s.ramIndex (s.cursor + 1) then v else s.ramRead i := by
  simp [State.ramRead, Memory.read_write _ _ _ h]

end Sys2Proof.Machine
end

