-- ==== Sys2Proof/Laws/PerInstr.lean ====
section
/-! SUPPORT. Facts about every instruction term, one lemma per constructor. -/

namespace Sys2Proof

/-- The fields of a command word built from a function field and an opcode (R82). -/
theorem fields_ofNat {f op : Nat} (hf : f < 2 ^ 8) (ho : op < 2 ^ 8) :
    fieldZ (BitVec.ofNat 32 (f * 2 ^ 8 + op)) = 0 ∧ fieldF (BitVec.ofNat 32 (f * 2 ^ 8 + op)) = f ∧
      fieldOp (BitVec.ofNat 32 (f * 2 ^ 8 + op)) = op := by
  simp only [fieldZ, fieldF, fieldOp, BitVec.extractLsb'_toNat, BitVec.toNat_ofNat,
    Nat.shiftRight_eq_div_pow]
  omega

theorem Instr.opcode_lt (i : Instr) : i.opcode < 2 ^ 8 := by
  cases i <;> simp [Instr.opcode]

theorem Reg.number_lt (r : Reg) : r.number < 9 := by
  cases r <;> decide

theorem Instr.function_lt (i : Instr) : i.function < 2 ^ 8 := by
  cases i with
  | rdreg r => exact lt_trans r.number_lt (by decide)
  | wrreg r _ => exact lt_trans r.number_lt (by decide)
  | _ => simp [Instr.function]

/-- The fields of every encoded command word (R82, R84). -/
theorem fields_encode (i : Instr) :
    fieldZ (encode i).cmd = 0 ∧ fieldF (encode i).cmd = i.function ∧
      fieldOp (encode i).cmd = i.opcode :=
  fields_ofNat i.function_lt i.opcode_lt

end Sys2Proof

namespace Sys2Proof.Laws.CommandWordFields

/-- The encoded command word has Z = 0 and the instruction's F and OP fields (R82, R84). -/
def Statement (i : Instr) : Prop :=
  fieldZ (encode i).cmd = 0 ∧ fieldF (encode i).cmd = i.function ∧
    fieldOp (encode i).cmd = i.opcode

theorem nop : Statement (.nop) := fields_encode _
theorem rdreg (r : Reg) : Statement (.rdreg r) := fields_encode _
theorem wrreg (r : Reg) (value : Word) : Statement (.wrreg r value) := fields_encode _
theorem u2f (v : Word) : Statement (.u2f v) := fields_encode _
theorem f2u (v : Word) : Statement (.f2u v) := fields_encode _
theorem pow2m1 (x : Word) : Statement (.pow2m1 x) := fields_encode _
theorem fastpow (a : Word) (b : Word) : Statement (.fastpow a b) := fields_encode _
theorem limit (x : Word) : Statement (.limit x) := fields_encode _
theorem qsin (index : Word) : Statement (.qsin index) := fields_encode _
theorem dlywr (sample : Word) : Statement (.dlywr sample) := fields_encode _
theorem dlyrd (delay : Word) : Statement (.dlyrd delay) := fields_encode _
theorem lfostepSine : Statement (.lfostepSine) := fields_encode _
theorem lfostepTri : Statement (.lfostepTri) := fields_encode _
theorem lfostepSaw : Statement (.lfostepSaw) := fields_encode _
theorem lfosetstep (rawStep : Word) : Statement (.lfosetstep rawStep) := fields_encode _
theorem lfosetfreq (hz : Word) : Statement (.lfosetfreq hz) := fields_encode _
theorem lfosetper (ms : Word) : Statement (.lfosetper ms) := fields_encode _
theorem smooth : Statement (.smooth) := fields_encode _
theorem echoinit (p1 : Word) (p2 : Word) (p3 : Word) (p4 : Word) : Statement (.echoinit p1 p2 p3 p4) := fields_encode _
theorem echostep (x : Word) : Statement (.echostep x) := fields_encode _
theorem echosample (x : Word) : Statement (.echosample x) := fields_encode _

end Sys2Proof.Laws.CommandWordFields
end

