-- ==== Sys2Proof/Laws/Step.lean ====
section
/-! SUPPORT. What one command, one port sample and one step can do. -/

namespace Sys2Proof.Machine

@[simp] theorem exec_nop (s : State) : exec .nop s = .next (s.answer 0) := rfl

@[simp] theorem exec_rdreg (r : Reg) (s : State) :
    exec (.rdreg r) s = .next (s.answer (s.readReg r)) := rfl

@[simp] theorem exec_wrreg_cfg (v : Word) (s : State) : exec (.wrreg .cfg v) s = .next s.refuse :=
  rfl

theorem exec_wrreg {r : Reg} (h : r ≠ .cfg) (v : Word) (s : State) :
    exec (.wrreg r v) s = .next ((s.writeReg r v).answer 0) := by
  simp [exec, execWrreg, h]

@[simp] theorem exec_u2f (v : Word) (s : State) :
    exec (.u2f v) s = .next (s.answer (Operand.u2f v)) := rfl

@[simp] theorem exec_f2u (v : Word) (s : State) :
    exec (.f2u v) s = .next (s.answer (Operand.f2u v)) := rfl

@[simp] theorem exec_pow2m1 (x : Word) (s : State) :
    exec (.pow2m1 x) s = .next (s.answer (pow2m1 x)) := rfl

@[simp] theorem exec_fastpow (a b : Word) (s : State) :
    exec (.fastpow a b) s = .next ((s.raiseIf (!Operand.powDomain a b) .fpdom).answer
      (Operand.fastpow s.config.fastpowK a b)) := rfl

@[simp] theorem exec_limit (x : Word) (s : State) :
    exec (.limit x) s = .next (s.answer (limit x)) := rfl

theorem exec_qsin_above {index : Word} {s : State} (h : s.config.steps < index.toNat) :
    exec (.qsin index) s = .next s.refuse := by
  simp [exec, execQsin, Operand.u32, h]

theorem exec_qsin_within {index : Word} {s : State} (h : index.toNat ≤ s.config.steps) :
    exec (.qsin index) s = .next (s.answer (romRead s.config index.toNat)) := by
  simp [exec, execQsin, Operand.u32, Nat.not_lt.mpr h]

@[simp] theorem exec_dlywr (v : Word) (s : State) :
    exec (.dlywr v) s = .next ((s.delayWrite v).answer 0) := rfl

@[simp] theorem exec_dlyrd (d : Word) (s : State) :
    exec (.dlyrd d) s = .next ((s.delayRead d).answer (s.delayValue d)) := rfl

@[simp] theorem exec_lfostepSine (s : State) :
    exec .lfostepSine s = .next (s.advancePhase.answer (sine s.config s.phase)) := rfl

@[simp] theorem exec_lfostepTri (s : State) :
    exec .lfostepTri s = .next (s.advancePhase.answer (triangle s.phase)) := rfl

@[simp] theorem exec_lfostepSaw (s : State) :
    exec .lfostepSaw s = .next (s.advancePhase.answer (sawtooth s.phase)) := rfl

@[simp] theorem exec_lfosetstep (r : Word) (s : State) :
    exec (.lfosetstep r) s = .next ((s.setStep r).answer 0) := rfl

@[simp] theorem exec_lfosetfreq (hz : Word) (s : State) :
    exec (.lfosetfreq hz) s = .next ((s.setStep (F32.mul hz fscale)).answer 0) := rfl

@[simp] theorem exec_lfosetper (ms : Word) (s : State) :
    exec (.lfosetper ms) s = .next ((s.setPeriod ms).answer 0) := rfl

@[simp] theorem exec_smooth (s : State) : exec .smooth s = .next (s.smooth.answer 0) := rfl

@[simp] theorem exec_echoinit (p1 p2 p3 p4 : Word) (s : State) :
    exec (.echoinit p1 p2 p3 p4) s = .next ((s.echoInit p1 p3 p4).answer 0) := rfl

@[simp] theorem exec_echostep (x : Word) (s : State) :
    exec (.echostep x) s = .next ((s.echoStep x).answer (s.echoOutput x)) := rfl

@[simp] theorem exec_echosample (x : Word) (s : State) :
    exec (.echosample x) s =
      .next ((s.smooth.echoStep x).answer (s.smooth.echoOutput x)) := rfl

/-- An accepted command runs the instruction it decodes to, or is refused. -/
theorem runCommand_next {c : Command} {s t : State} (h : runCommand c s = .next t) :
    (∃ i, decode c = .ok i ∧ exec i s = .next t) ∨ (∃ e, decode c = .error e ∧ t = s.refuse) := by
  unfold runCommand at h
  split at h
  next i hi => exact .inl ⟨i, hi, h⟩
  next e he => exact .inr ⟨e, he, by injection h with h; exact h.symm⟩

/-- What one edge can do. -/
theorem State.edge_next {s t : State} {e : PortInput} (h : s.edge e = .next t) :
    (e.rst = true ∧ t = s.resetAll) ∨
      (e.rst = false ∧
        ((∃ r, s.rsp = some r ∧ e.rspReady = true ∧ t = s.deliver r) ∨
          (∃ r, s.rsp = some r ∧ e.rspReady = false ∧ t = s) ∨
          (∃ c, s.rsp = none ∧ e.cmd = some c ∧ runCommand c s = .next t) ∨
          (s.rsp = none ∧ e.cmd = none ∧ t = s))) := by
  cases hr : e.rst with
  | true =>
    simp only [State.edge, hr, if_true] at h
    exact .inl ⟨rfl, by injection h with h; exact h.symm⟩
  | false =>
    refine .inr ⟨rfl, ?_⟩
    cases hs : s.rsp with
    | some r =>
      simp only [State.edge, hr, hs, Bool.false_eq_true, if_false] at h
      cases hy : e.rspReady with
      | true =>
        simp only [hy, if_true] at h
        exact .inl ⟨r, rfl, rfl, by injection h with h; exact h.symm⟩
      | false =>
        simp only [hy, Bool.false_eq_true, if_false] at h
        exact .inr (.inl ⟨r, rfl, rfl, by injection h with h; exact h.symm⟩)
    | none =>
      cases hc : e.cmd with
      | some c =>
        simp only [State.edge, hr, hs, hc, Bool.false_eq_true, if_false] at h
        exact .inr (.inr (.inl ⟨c, rfl, rfl, h⟩))
      | none =>
        simp only [State.edge, hr, hs, hc, Bool.false_eq_true, if_false] at h
        exact .inr (.inr (.inr ⟨rfl, rfl, by injection h with h; exact h.symm⟩))

/-- What one step can do. -/
theorem step_next {s t : State} (h : step s = .next t) :
    (s.inputs = [] ∧ t = s) ∨
      (∃ e rest, s.inputs = e :: rest ∧ (s.setInputs rest).edge e = .next t) := by
  unfold step at h
  split at h
  next hs => exact .inl ⟨hs, by injection h with h; exact h.symm⟩
  next e rest hs => exact .inr ⟨e, rest, hs, h⟩

end Sys2Proof.Machine
end

