-- ==== Sys2Proof/Tests/Slice0.lean ====
section
/-! SUPPORT. The author's tests. Expected values come from the rules and the worked vectors of
spec/95_test_vectors.md, never from the model. A `witness_` theorem shows a concrete state and
operands that meet every hypothesis of the obligation it names. -/

namespace Sys2Proof.Tests

open Sys2Proof Sys2Proof.Machine

-- One test after another: each waits for the kernel, and a thread apiece is too many.
set_option Elab.async false

/-- The next state, where there is one. -/
def nextOf : Result → Option State
  | .next t => some t
  | .fault _ | .refused _ => none

/-- The response of one command. -/
def reply (i : Instr) (s : State) : Option Response := (nextOf (exec i s)).bind fun t => t.rsp

/-- The state after one command. -/
def after (i : Instr) (s : State) : State := (nextOf (exec i s)).getD s

/-- RESP is OK with this result. -/
def ok (w : Word) : Option Response := some ⟨.ok, w⟩

/-- The outcome of a decoding. -/
def read (w a b c d : Word) : Option Instr := (decode ⟨w, a, b, c, d⟩).toOption

/-- Four samples in the delay RAM (section 2.6). -/
def fourSamples : State :=
  { State.reset with
      cursor := 4
      ram := [(1, 0x3F800000#32), (2, 0x40000000#32), (3, 0x40400000#32), (4, 0x40800000#32)] }

/-- A phase with no increment. -/
def atPhase (p : Word) : State := State.reset.setPhase p

/-- A host that presents one command and then waits. -/
def presenting (c : Command) : State := State.reset.setInputs [PortInput.present c]

/- ### Well-formedness -/

theorem test_wf_refuses_wrreg_cfg : (Instr.wrreg .cfg 0).wf = false := by decide
theorem test_wf_accepts_wrreg_status : (Instr.wrreg .status 0).wf = true := by decide

/- ### Decoding: words written out from R82 (Z, F, OP) and R84, one for each constructor -/

theorem test_decode_nop : read 0x00000000#32 1 2 3 4 = some .nop := by decide
theorem test_decode_rdreg : read 0x00000801#32 1 2 3 4 = some (.rdreg .depth) := by decide
theorem test_decode_wrreg : read 0x00000302#32 1 2 3 4 = some (.wrreg .phase 1) := by decide
theorem test_decode_u2f : read 0x00000010#32 1 2 3 4 = some (.u2f 1) := by decide
theorem test_decode_f2u : read 0x00000011#32 1 2 3 4 = some (.f2u 1) := by decide
theorem test_decode_pow2m1 : read 0x00000012#32 1 2 3 4 = some (.pow2m1 1) := by decide
theorem test_decode_fastpow : read 0x00000013#32 1 2 3 4 = some (.fastpow 1 2) := by decide
theorem test_decode_limit : read 0x00000014#32 1 2 3 4 = some (.limit 1) := by decide
theorem test_decode_qsin : read 0x00000018#32 1 2 3 4 = some (.qsin 1) := by decide
theorem test_decode_dlywr : read 0x00000020#32 1 2 3 4 = some (.dlywr 1) := by decide
theorem test_decode_dlyrd : read 0x00000021#32 1 2 3 4 = some (.dlyrd 1) := by decide
theorem test_decode_sine : read 0x00000030#32 1 2 3 4 = some .lfostepSine := by decide
theorem test_decode_tri : read 0x00000130#32 1 2 3 4 = some .lfostepTri := by decide
theorem test_decode_saw : read 0x00000230#32 1 2 3 4 = some .lfostepSaw := by decide
theorem test_decode_setstep : read 0x00000031#32 1 2 3 4 = some (.lfosetstep 1) := by decide
theorem test_decode_setfreq : read 0x00000032#32 1 2 3 4 = some (.lfosetfreq 1) := by decide
theorem test_decode_setper : read 0x00000033#32 1 2 3 4 = some (.lfosetper 1) := by decide
theorem test_decode_smooth : read 0x00000040#32 1 2 3 4 = some .smooth := by decide
theorem test_decode_echoinit : read 0x00000041#32 1 2 3 4 = some (.echoinit 1 2 3 4) := by decide
theorem test_decode_echostep : read 0x00000042#32 1 2 3 4 = some (.echostep 1) := by decide
theorem test_decode_echosample : read 0x00000043#32 1 2 3 4 = some (.echosample 1) := by decide

/-- Section 2.1: the refused words. -/
theorem test_decode_refuses :
    [0x00000901#32, 0x00000002#32, 0x00000902#32, 0x00000003#32, 0x00000015#32, 0x00000330#32,
      0x00000110#32, 0x00000143#32, 0x00010000#32, 0x80000043#32, 0x000000FF#32].all
      (fun w => (read w 0 0 0 0).isNone) = true := by decide

theorem test_decode_table_word : decodeTableWord 32 0x00000130 = some .lfostepTri := by decide
theorem test_encode_setper : encode (.lfosetper 5) = ⟨0x00000033#32, 5, 0, 0, 0⟩ := by decide

/- ### Scripts (R94, R95, the lines of section 3) -/

theorem test_script_echoinit :
    assembleLine "ECHOINIT 0.1, 0, 0.25, 0.5 ; begin".toList =
      some (some ⟨0x00000041#32, 0x3DCCCCCD#32, 0, 0x3E800000#32, 0x3F000000#32⟩) := by
  decide +kernel
theorem test_script_wrreg :
    assembleLine "WRREG PHASE, 0x20000000".toList =
      some (some ⟨0x00000302#32, 0x20000000#32, 0, 0, 0⟩) := by decide +kernel
theorem test_script_exponent :
    assembleLine "POW2M1 -1.0e-3".toList = some (some ⟨0x00000012#32, 0xBA83126F#32, 0, 0, 0⟩) := by
  decide +kernel
theorem test_script_unsigned_and_pseudo :
    assembleLine "QSIN 256u".toList = some (some ⟨0x00000018#32, 0x00000100#32, 0, 0, 0⟩) ∧
    assembleLine "PROCESS nan".toList = some (some ⟨0x00000043#32, 0x7FC00000#32, 0, 0, 0⟩) ∧
    assembleLine "DLYWR -0.0".toList = some (some ⟨0x00000020#32, 0x80000000#32, 0, 0, 0⟩) := by
  decide +kernel
theorem test_script_refuses :
    assembleLine "WRREG CFG, 1u".toList = none ∧ assembleLine "HALT".toList = none ∧
    assembleLine "; note".toList = some none := by decide +kernel

/- ### The constants of R102, R162, R163, R180 are the `c32` of their decimals -/

theorem test_constants_limiter :
    F32.c32 false 19 100 = c19 ∧ F32.c32 false 162 10000 = c162 := by decide +kernel
theorem test_constants_rates :
    F32.c32 false 1 1000 = smoothingRate ∧ F32.c32 false 1 10 = c01 ∧
    F32.c32 false (2 ^ 32) 48000 = fscale ∧
    F32.mul (F32.c32 false 1000 1) fscale = pscale := by decide +kernel
/-- ln 2 to 30 decimals; the powers and factorials of R102 divided out. -/
theorem test_constants_logarithm :
    let n := 693147180559945309417232121458
    let d := 10 ^ 30
    F32.c32 false n d = l1 ∧ F32.c32 false (n ^ 2) (2 * d ^ 2) = l2 ∧
    F32.c32 false (n ^ 3) (6 * d ^ 3) = l3 ∧ F32.c32 false (n ^ 4) (24 * d ^ 4) = l4 := by
  decide +kernel

/- ### One step of each command -/

theorem test_nop : reply .nop State.reset = ok 0 := by decide +kernel
theorem test_rdreg_cfg : reply (.rdreg .cfg) State.reset = ok 0x00000910#32 := by decide +kernel
theorem test_wrreg_status :
    (after (.wrreg .status 5) (State.reset.setStatus 0x0000011F#32)).status = 0x0000011A#32 := by
  decide +kernel
theorem test_wrreg_cursor_wraps :
    (after (.dlywr 0x40E00000#32) (State.reset.setCursor 0xFFFFFFFF#32)).ram =
      [(0, 0x40E00000#32)] := by decide +kernel
theorem test_u2f_truncates : reply (.u2f 0xFFFFFF80#32) State.reset = ok 0x3F7FFFFF#32 := by
  decide +kernel
theorem test_u2f_odd_bits : reply (.u2f 0x12345678#32) State.reset = ok 0x3D91A2B3#32 := by
  decide +kernel
theorem test_f2u_below_one : reply (.f2u 0x3F7FFFFF#32) State.reset = ok 0xFFFFFF00#32 := by
  decide +kernel
theorem test_f2u_saturates :
    reply (.f2u 0x40000000#32) State.reset = ok 0xFFFFFFFF#32 ∧
    reply (.f2u 0xFF800000#32) State.reset = ok 0 := by decide +kernel
theorem test_pow2m1 : reply (.pow2m1 0x3F000000#32) State.reset = ok 0x3ED40E02#32 := by
  decide +kernel
theorem test_pow2m1_negative_infinity :
    reply (.pow2m1 0xFF800000#32) State.reset = ok 0x7F800000#32 := by decide +kernel
theorem test_fastpow :
    reply (.fastpow 0x40000000#32 0x40000000#32) State.reset = ok 0x4010ED81#32 := by
  decide +kernel
theorem test_fastpow_negative_base :
    reply (.fastpow 0xC0000000#32 0x40000000#32) State.reset = ok 0x80000000#32 ∧
    (after (.fastpow 0xC0000000#32 0x40000000#32) State.reset).status = 2 := by decide +kernel
theorem test_limit : reply (.limit 0x40200000#32) State.reset = ok 0x3F8E8000#32 := by
  decide +kernel
theorem test_limit_large : reply (.limit 0x60AD78EC#32) State.reset = ok 0x7FC00000#32 := by
  decide +kernel
theorem test_qsin : reply (.qsin 257) State.reset = ok 0x3F3592E7#32 := by decide +kernel
theorem test_qsin_refused :
    reply (.qsin 513) State.reset = some ⟨.illegal, 0⟩ ∧
    (after (.qsin 513) State.reset).status = 0x00000010#32 := by decide +kernel
theorem test_dlywr :
    (after (.dlywr 0x7F800001#32) State.reset).ram = [(1, 0x7F800001#32)] := by decide +kernel
theorem test_dlyrd_between_taps :
    reply (.dlyrd 0x40100000#32) fourSamples = ok 0x40100000#32 ∧
    reply (.dlyrd 0x3E800000#32) fourSamples = ok 0x40400000#32 := by decide +kernel
theorem test_dlyrd_negative :
    reply (.dlyrd 0xBF800000#32) fourSamples = ok 0 ∧
    (after (.dlyrd 0xBF800000#32) fourSamples).status = 1 := by decide +kernel
theorem test_sine_odd_quadrant : reply .lfostepSine (atPhase 0x7FFFFFFF#32) = ok 0x3096CBD4#32 := by
  decide +kernel
theorem test_sine_first_quadrant : reply .lfostepSine (atPhase 0x12345678#32) = ok 0x3EDD3A48#32 := by
  decide +kernel
theorem test_tri_last_quadrant : reply .lfostepTri (atPhase 0xFFFFFFFF#32) = ok 0xB0400000#32 := by
  decide +kernel
theorem test_saw_wraps :
    reply .lfostepSaw ((atPhase 0xD5555580#32).setIncr 0x35555580#32) = ok 0x3F555555#32 ∧
    (after .lfostepSaw ((atPhase 0xD5555580#32).setIncr 0x35555580#32)).phase = 0x0AAAAB00#32 := by
  decide +kernel
theorem test_setstep_ties :
    (after (.lfosetstep 0x40200000#32) State.reset).incr = 2 ∧
    (after (.lfosetstep 0x3FC00000#32) State.reset).incr = 2 := by decide +kernel
theorem test_setfreq : (after (.lfosetfreq 0x473B7F00#32) State.reset).incr = 0xFFFEA200#32 := by
  decide +kernel
theorem test_setper : (after (.lfosetper 0x40200000#32) State.reset).incr = 35791396#32 := by
  decide +kernel
theorem test_setper_clamps :
    (after (.lfosetper 0x3D4CCCCD#32) State.reset).incr = 894784896#32 ∧
    (after (.lfosetper 0x3D4CCCCD#32) State.reset).status = 8 := by decide +kernel
theorem test_smooth :
    (after .smooth (State.reset.setTgtdly 0x45960000#32)).curdly = 0x4099999A#32 := by
  decide +kernel
theorem test_smooth_negative_zero :
    (after .smooth (State.reset.setCurdly 0x80000000#32)).curdly = 0 := by decide +kernel
/-- Section 2.10: both silent cases in one command. -/
theorem test_echoinit_ignored_and_clamped :
    (after (.echoinit 0x3FC00000#32 0 0x3CCBFB16#32 0) State.reset).status = 0x0000010C#32 ∧
    (after (.echoinit 0x3FC00000#32 0 0x3CCBFB16#32 0) State.reset).incr = 894784896#32 := by
  decide +kernel
theorem test_echoinit_two_roundings :
    (after (.echoinit 0x38D1B717#32 0 0x3F800000#32 0x7FC00001#32) State.reset).tgtdly =
      0x40999999#32 ∧
    (after (.echoinit 0x38D1B717#32 0 0x3F800000#32 0x7FC00001#32) State.reset).feedback =
      0x7FC00001#32 := by decide +kernel
/-- Line 9 of program P3: the tap is read before the write, which goes to the advanced cursor. -/
theorem test_echostep :
    let s := { fourSamples with
      cursor := 5, curdly := 0x40400000#32, feedback := 0x3F000000#32, ram := [(1, 0x3F5381D8#32)] }
    reply (.echostep 0) s = ok 0x3ED381D8#32 ∧
    (after (.echostep 0) s).ram = [(1, 0x3F5381D8#32), (6, 0x3ECCBFC6#32)] := by decide +kernel
theorem test_echosample :
    let s := State.reset.setTgtdly 0x45960000#32
    reply (.echosample 0x3F800000#32) s = ok 0x3F000000#32 ∧
    (after (.echosample 0x3F800000#32) s).curdly = 0x4099999A#32 ∧
    (after (.echosample 0x3F800000#32) s).ram = [(1, 0x3F5381D8#32)] := by decide +kernel

/- ### Steps -/

theorem test_step_runs_fetched_word :
    (nextOf (step (State.reset.withFetchWord 32 0x00000130))).bind (fun t => t.rsp) = ok 0 := by
  decide +kernel
theorem test_step_refuses_reserved_word :
    (nextOf (step (State.reset.withFetchWord 32 0x00000003))).map (fun t => t.status) =
      some 0x00000010#32 := by decide +kernel

/- ### Witnesses for the hypotheses of the obligations -/

theorem witness_DecodeOfEncodeIsIdentity :
    (Instr.echoinit 0xFFFFFFFF#32 1 2 3).wf = true ∧ (Instr.wrreg .depth 7).wf = true := by decide
theorem witness_EncodeOfDecodeKeepsCommandWord :
    read 0x00000802#32 1 2 3 4 = some (.wrreg .depth 1) := by decide
theorem witness_UnlistedOperandsAreIgnored :
    (fieldOp 0x00000042#32 ≠ 0x13 ∧ fieldOp 0x00000042#32 ≠ 0x41) ∧
    fieldOp 0x00000230#32 ∈ [0x00, 0x01, 0x30, 0x40] ∧ fieldOp 0x00000013#32 = 0x13 := by decide
theorem witness_PseudoCommandsAssembleToOneCommand :
    readLiteral (trim " 4800.0".toList) = some (.decimal false 48000 (-1)) := by decide +kernel
theorem witness_StepRunsDecodedCommand :
    let c : Command := ⟨0x00000020#32, 7, 0, 0, 0⟩
    let s := presenting c
    s.inputs = PortInput.present c :: [] ∧ (PortInput.present c).rst = false ∧
    (PortInput.present c).cmd = some c ∧ s.rsp = none ∧
    (decode c).toOption = some (.dlywr 7) := by decide +kernel
/-- Both values of `rsp_ready`. -/
theorem witness_ResponseIsHeldUntilTaken :
    ∀ ready : Bool, ((State.reset.setRsp (ok 3)).setInputs [⟨false, none, ready⟩]).inputs =
      [⟨false, none, ready⟩] ∧
      ((State.reset.setRsp (ok 3)).setInputs [⟨false, none, ready⟩]).rsp = some ⟨.ok, 3⟩ := by
  decide +kernel
theorem witness_ResetGivesTheResetState :
    let s := (fourSamples.setRsp (ok 3)).setInputs [⟨true, none, true⟩]
    s.inputs = (⟨true, none, true⟩ : PortInput) :: [] ∧ s.rsp = ok 3 ∧
    Reg.depth ≠ Reg.cfg := by decide +kernel
theorem witness_RefusalOnlySetsIllcmd :
    read 0x00000002#32 5 0 0 0 = none ∧
    State.reset.config.steps < (0x00000201#32 : Word).toNat := by decide +kernel
theorem witness_RefusalMarkLastsUntilReset :
    let s := State.reset.refuse.setInputs [⟨false, none, true⟩]
    s.refusalMark = true ∧ (nextOf (step s)).isSome = true ∧
    (∀ e ∈ s.inputs.head?, e.rst = false) := by decide +kernel
theorem witness_StepKeepsInvariant :
    (presenting ⟨0x00000020#32, 7, 0, 0, 0⟩).inv = true ∧
    (nextOf (step (presenting ⟨0x00000020#32, 7, 0, 0, 0⟩))).isSome = true := by decide +kernel
theorem witness_FlagsAreSticky :
    let s := State.reset.setStatus 0x00000111#32
    nextOf (exec .smooth s) = some (after .smooth s) ∧ (∀ v, Instr.smooth ≠ .wrreg .status v) ∧
    s.flag .alias_ = true ∧ s.flag .initd = true :=
  ⟨by decide +kernel, fun _ h => Instr.noConfusion h, by decide +kernel, by decide +kernel⟩
theorem witness_OnlyNamedCommandsWrite :
    nextOf (exec .smooth fourSamples) = some (after .smooth fourSamples) ∧
    mayWrite .cursor .smooth = false ∧ mayWrite .curdly .smooth = true ∧
    mayWriteRam .smooth = false := by decide +kernel
theorem witness_FlagsChangeNoResult :
    nextOf (exec (.dlyrd 0) fourSamples) = some (after (.dlyrd 0) fourSamples) ∧
    nextOf (exec (.dlyrd 0) (fourSamples.setStatus 9)) =
      some (after (.dlyrd 0) (fourSamples.setStatus 9)) ∧
    Instr.dlyrd 0 ≠ .rdreg .status := by decide +kernel
theorem witness_DepthInfluencesNothing :
    nextOf (exec (.dlyrd 0) fourSamples) = some (after (.dlyrd 0) fourSamples) ∧
    nextOf (exec (.dlyrd 0) (fourSamples.setDepth 9)) =
      some (after (.dlyrd 0) (fourSamples.setDepth 9)) ∧
    Instr.dlyrd 0 ≠ .rdreg .depth := by decide +kernel
theorem witness_CfgReportsTheSizeParameters :
    (nextOf (step (presenting ⟨0x00000020#32, 7, 0, 0, 0⟩))).isSome = true := by decide +kernel
/-- STATUS with a bit below and one above the write-1-to-clear range, and a plain register. -/
theorem witness_WrregWritesTheNamedRegister :
    Reg.status ≠ .cfg ∧ Reg.phase ≠ .cfg ∧ Reg.phase ≠ .status ∧ (4 < 5 ∧ ¬ 8 < 5) := by decide
/-- Both bit ranges at their ends, and two operands that differ above bit 4 only. -/
theorem witness_StatusWriteClearsOnlyNamedFlags :
    4 < 5 ∧ 5 ≤ 5 ∧ (0xFFFFFFFF#32 : Word).toNat % 2 ^ 5 = (0x0000001F#32 : Word).toNat % 2 ^ 5 ∧
    nextOf (exec .smooth (State.reset.setStatus 0x00000100#32)) =
      some (after .smooth (State.reset.setStatus 0x00000100#32)) ∧
    (State.reset.setStatus 0x00000100#32).flag .initd = true := by decide +kernel

/-- Just below the overflow bound, and the bound itself; a tie, and its other neighbour. -/
theorem witness_RoundingGivesTheNearestDatum :
    ((2 ^ 128 - 2 ^ 103 - 1 : ℚ) ≠ 0 ∧ |(2 ^ 128 - 2 ^ 103 - 1 : ℚ)| < 2 ^ 128 - 2 ^ 103) ∧
    ((2 : ℚ) ^ 128 - 2 ^ 103 ≠ 0 ∧ (2 : ℚ) ^ 128 - 2 ^ 103 ≤ |2 ^ 128 - 2 ^ 103|) ∧
    (F32.isFinite 0x3F800001#32 = true ∧
      |(1 + 1 / 2 ^ 24 : ℚ) - F32.val 0x3F800001#32| =
        |(1 + 1 / 2 ^ 24) - F32.val (F32.roundNearest (1 + 1 / 2 ^ 24))| ∧
      F32.val 0x3F800001#32 ≠ F32.val (F32.roundNearest (1 + 1 / 2 ^ 24)) ∧
      |F32.val 0x3F800000#32| ≤ |(1 + 1 / 2 ^ 24 : ℚ)|) := by decide +kernel
theorem witness_ArithmeticRoundsTheExactResult :
    F32.isFinite 0x3F800000#32 = true ∧ F32.isFinite 0x40400000#32 = true ∧
    F32.val 0x3F800000#32 + F32.val 0x40400000#32 ≠ 0 ∧
    F32.val 0x3F800000#32 - F32.val 0x40400000#32 ≠ 0 ∧
    F32.val 0x3F800000#32 * F32.val 0x40400000#32 ≠ 0 ∧
    F32.val 0x3F800000#32 ≠ 0 ∧ F32.val 0x40400000#32 ≠ 0 := by decide +kernel
/-- Two infinities; an infinity with a finite datum and with a zero; finite pairs with a zero. -/
theorem witness_SpecialValueArithmetic :
    (F32.isNaN 0x7F800000#32 = false ∧ F32.isInf 0x7F800000#32 = true ∧
      F32.isNaN 0xFF800000#32 = false ∧ F32.isInf 0xFF800000#32 = true) ∧
    (F32.isNaN 0x3F800000#32 = false ∧ F32.isFinite 0x3F800000#32 = true ∧
      F32.val 0x3F800000#32 ≠ 0) ∧
    (F32.isNaN 0x80000000#32 = false ∧ F32.isFinite 0x80000000#32 = true ∧
      F32.val 0x80000000#32 = 0) ∧
    (F32.val 0x3F800000#32 + F32.val 0xBF800000#32 = 0 ∧ F32.isFinite 0xBF800000#32 = true ∧
      F32.val 0x3F800000#32 - F32.val 0x3F800000#32 = 0 ∧
      F32.val 0x3F800000#32 * F32.val 0x80000000#32 = 0) := by decide +kernel
/-- A NaN operand, and a NaN result of operands that are none. -/
theorem witness_NaNResultsAreCanonical :
    F32.add ∈ [F32.add] ∧ F32.isNaN 0x7F800001#32 = true ∧
    F32.isNaN (F32.add 0x7F800000#32 0xFF800000#32) = true :=
  ⟨List.mem_singleton.mpr rfl, by decide +kernel, by decide +kernel⟩
theorem witness_ComparisonIsOfValues :
    F32.isNaN 0x7FC00000#32 = true ∧
    (F32.isFinite 0x80000000#32 = true ∧ F32.isFinite 0x00000000#32 = true) ∧
    (F32.isInf 0xFF800000#32 = true ∧ F32.isInf 0x7F800000#32 = true) ∧
    65536 < 2 ^ 128 := by decide +kernel

/-- Each clause at an end of its range: NaN, an infinity, -0.0, 1.0, and the data next to 0 and
1. -/
theorem witness_F2uFloorsAndSaturates :
    F32.isNaN 0x7FC00000#32 = true ∧ F32.isInf 0xFF800000#32 = true ∧
    (F32.isFinite 0x80000000#32 = true ∧ F32.val 0x80000000#32 ≤ 0) ∧
    (F32.isFinite 0x3F800000#32 = true ∧ 1 ≤ F32.val 0x3F800000#32) ∧
    (F32.isFinite 0x3F7FFFFF#32 = true ∧ 0 < F32.val 0x3F7FFFFF#32 ∧
      F32.val 0x3F7FFFFF#32 < 1) ∧
    (F32.isFinite 0x00000001#32 = true ∧ 0 < F32.val 0x00000001#32 ∧
      F32.val 0x00000001#32 < 1) := by decide +kernel
theorem witness_FractionConversionsAreInverse :
    (0x00FFFFFF#32 : Word).toNat < 2 ^ 24 ∧
    (F32.isFinite 0x3B000000#32 = true ∧ 1 / 2 ^ 9 ≤ F32.val 0x3B000000#32 ∧
      F32.val 0x3B000000#32 < 1) := by decide +kernel
/-- A finite and an infinite exponent; a transform above and one below 0; both sides of the
domain test. -/
theorem witness_FastpowTruncatesTheExactTransform :
    let k : ℤ := State.reset.config.fastpowK.toInt
    (F32.isFinite 0x40000000#32 = true ∧ 0 < F32.val 0x40000000#32) ∧
    F32.isFinite 0x7F800000#32 = false ∧ ¬ 0 < F32.val 0xC0000000#32 ∧
    0 ≤ F32.val 0x40000000#32 * ((0x40000000#32 : Word).toInt - k : ℤ) + k ∧
    F32.val 0x40000000#32 * ((0xC0000000#32 : Word).toInt - k : ℤ) + k < 0 := by decide +kernel
theorem witness_LimiterIsOdd : F32.isNaN (limit 0x3F800000#32) = false := by decide +kernel
theorem witness_QsinAnswersTheRomWord :
    (0x00000200#32 : Word).toNat ≤ State.reset.config.steps := by decide +kernel
theorem witness_DlywrStoresAtTheAdvancedCursor : fourSamples.inv = true := by decide +kernel
/-- Not finite; in range at both ends; out of range on both sides; with and without a fraction. -/
theorem witness_DlyrdInterpolatesBetweenTaps :
    F32.isFinite 0x7F800000#32 = false ∧
    (F32.isFinite 0x80000000#32 = true ∧ 0 ≤ F32.val 0x80000000#32 ∧
      F32.val 0x80000000#32 < State.reset.config.capacity) ∧
    F32.val 0x477FFF80#32 < State.reset.config.capacity ∧
    ¬ F32.val 0x47800000#32 < State.reset.config.capacity ∧ ¬ 0 ≤ F32.val 0x80000001#32 ∧
    F32.roundNearest (F32.val 0x3FC00000#32 - ⌊F32.val 0x3FC00000#32⌋) ≠ 0 ∧
    F32.roundNearest (F32.val 0x3F800000#32 - ⌊F32.val 0x3F800000#32⌋) = 0 := by decide +kernel
theorem witness_DelayFractionIsExact :
    F32.isFinite 0x3FC00000#32 = true ∧ 0 ≤ F32.val 0x3FC00000#32 := by decide +kernel
theorem witness_ReadAtCapacityAliasesTheNewest :
    F32.isFinite 0x47800000#32 = true ∧ F32.val 0x47800000#32 = State.reset.config.capacity := by
  decide +kernel
theorem witness_DelayRoundTripIsBitExact :
    fourSamples.inv = true ∧ 1 < ([5, 6] : List Word).length ∧ 1 < fourSamples.config.capacity ∧
    F32.isFinite 0x3F800000#32 = true ∧ F32.val 0x3F800000#32 = (1 : Nat) := by decide +kernel
theorem witness_SineStaysInRange : State.reset.config.sineRom = defaultSineRom := by
  decide +kernel
theorem witness_LfoPhaseIsPeriodic :
    (∀ i ∈ [Instr.lfostepSine, .lfostepTri, .lfostepSaw], isLfoStep i = true) ∧
    (State.reset.setIncr 0x40000000#32).incr ≠ 0 := by decide +kernel
/-- NaN, an infinity, a tie, and the saturated ends. -/
theorem witness_LfosetstepRoundsAndSaturates :
    F32.isNaN 0x7FC00000#32 = true ∧ F32.isInf 0xFF800000#32 = true ∧
    (F32.isFinite 0x40200000#32 = true ∧ |F32.val 0x40200000#32 - (2 : ℤ)| = 1 / 2) ∧
    F32.isFinite 0x4F800000#32 = true ∧ F32.isFinite 0xBF333333#32 = true := by decide +kernel
theorem witness_SmoothRestsAtItsTarget :
    let s := (State.reset.setCurdly 0x80000000#32).setTgtdly 0x80000000#32
    F32.isFinite s.curdly = true ∧ s.tgtdly = s.curdly := by decide +kernel
theorem witness_EchostepReadsThenWrites : State.reset.inv = true := by decide +kernel
theorem witness_EchosampleIsSmoothThenEchostep : fourSamples.inv = true := by decide +kernel
theorem witness_EchoLoopDelayIsCurdlyPlusTwo :
    let s := fourSamples.setCurdly 0x40400000#32
    s.inv = true ∧ F32.isFinite s.curdly = true ∧ F32.val s.curdly = (3 : Nat) ∧
    3 + 1 < s.config.capacity ∧ ([0, 0, 0, 0] : List Word).length = 3 + 1 := by decide +kernel

end Sys2Proof.Tests
end

section
/-! PROOFS. The rational value of a datum (spec/00_scope.md R10), and what each word operation of
R12 and R14 does on each class of operands. -/

namespace Sys2Proof.F32

/-! ### The value in units of 2^-149 -/

/-- The value formula of R10 is the model's integer `units`, scaled. -/
theorem val_eq_units (x : Word) : val x = (units x : ℚ) / 2 ^ 149 := by
  have hmag : (if expo x = 0 then (frac x : ℚ) * 2 ^ (-149 : ℤ)
      else (2 ^ 23 + (frac x : ℚ)) * 2 ^ ((expo x : ℤ) - 150)) = (mag x : ℚ) / 2 ^ 149 := by
    unfold mag
    split
    next h => rw [zpow_neg, ← div_eq_mul_inv]; rfl
    next h =>
      have hexp : (expo x : ℤ) - 150 = ((expo x - 1 : ℕ) : ℤ) - (149 : ℕ) := by omega
      rw [hexp, zpow_sub₀ two_ne_zero, zpow_natCast, zpow_natCast]
      push_cast
      ring
  rw [val, hmag, units]
  cases sign x
  · simp
  · simp [neg_div]

theorem abs_val (x : Word) : |val x| = (mag x : ℚ) / 2 ^ 149 := by
  rw [val_eq_units, abs_div, ← Int.cast_abs, Int.abs_eq_natAbs, natAbs_units]
  simp

theorem val_eq_zero_iff (x : Word) : val x = 0 ↔ mag x = 0 := by
  rw [← abs_eq_zero, abs_val]
  simp

theorem val_of_sign (x : Word) : val x = if sign x then -|val x| else |val x| := by
  rw [abs_val, val_eq_units, units]
  cases sign x
  · simp
  · simp [neg_div]

theorem val_lt_zero_iff {x : Word} (h : val x ≠ 0) : val x < 0 ↔ sign x = true := by
  have habs : 0 < |val x| := abs_pos.mpr h
  rw [val_of_sign]
  cases sign x
  · simp
  · simpa using h

@[simp] theorem val_neg (x : Word) : val (neg x) = -val x := by
  simp [val_eq_units, neg_div]

theorem val_lt_val_iff (x y : Word) : val x < val y ↔ units x < units y := by
  rw [val_eq_units, val_eq_units, div_lt_div_iff_of_pos_right (by positivity), Int.cast_lt]

/-! ### The classes of words -/

theorem not_isNaN_of_isInf {x : Word} (h : isInf x = true) : isNaN x = false := by
  simp only [isInf, Bool.and_eq_true, beq_iff_eq] at h
  simp [isNaN, h]

theorem not_isNaN_of_isFinite {x : Word} (h : isFinite x = true) : isNaN x = false := by
  simp_all [isFinite, isNaN]

theorem not_isInf_of_isFinite {x : Word} (h : isFinite x = true) : isInf x = false := by
  simp_all [isFinite, isInf]

@[simp] theorem isNaN_zero (s : Bool) : isNaN (zero s) = false := isNaN_pack s (by decide)

@[simp] theorem isNaN_inf (s : Bool) : isNaN (inf s) = false := isNaN_pack s (by decide)

theorem bits_of_isInf {x : Word} (h : isInf x = true) : bits x = infBits := by
  simp only [isInf, Bool.and_eq_true, beq_iff_eq] at h
  rw [bits_eq, h.1, h.2]
  rfl

/-- An infinity is the one of its sign. -/
theorem eq_inf_of_isInf {x : Word} (h : isInf x = true) : x = inf (sign x) := by
  rw [inf, ← bits_of_isInf h, pack_sign_bits]

/-- The value formula puts an infinity above every finite magnitude. -/
theorem mag_of_isInf {x : Word} (h : isInf x = true) : mag x = 2 ^ 277 := by
  rw [mag_eq, bits_of_isInf h, magOfBits_infBits]

theorem mag_ne_zero_of_isInf {x : Word} (h : isInf x = true) : mag x ≠ 0 := by
  rw [mag_of_isInf h]
  positivity

/-! ### The operations, class by class -/

theorem add_of_isNaN {x y : Word} (h : isNaN x = true ∨ isNaN y = true) :
    add x y = canonicalNaN := by
  simp [add, h]

theorem mul_of_isNaN {x y : Word} (h : isNaN x = true ∨ isNaN y = true) :
    mul x y = canonicalNaN := by
  simp [mul, h]

theorem div_of_isNaN {x y : Word} (h : isNaN x = true ∨ isNaN y = true) :
    div x y = canonicalNaN := by
  simp [div, h]

theorem sub_of_isNaN {x y : Word} (h : isNaN x = true ∨ isNaN y = true) :
    sub x y = canonicalNaN :=
  add_of_isNaN (by rwa [isNaN_neg])

theorem add_of_isInf {x y : Word} (hx : isInf x = true) (hy : isInf y = true) :
    add x y = if sign x = sign y then x else canonicalNaN := by
  by_cases h : sign x = sign y
  · simp [add, hx, not_isNaN_of_isInf, hy, h]
  · simp [add, hx, not_isNaN_of_isInf, hy, h]

theorem add_of_isInf_isFinite {x y : Word} (hx : isInf x = true) (hy : isFinite y = true) :
    add x y = x := by
  simp [add, hx, not_isNaN_of_isInf, not_isNaN_of_isFinite, not_isInf_of_isFinite, hy]

theorem add_of_isFinite_isInf {x y : Word} (hx : isFinite x = true) (hy : isInf y = true) :
    add x y = y := by
  simp [add, hy, not_isNaN_of_isInf, not_isNaN_of_isFinite, not_isInf_of_isFinite, hx]

theorem add_of_isFinite {x y : Word} (hx : isFinite x = true) (hy : isFinite y = true) :
    add x y = addFinite x y := by
  simp [add, not_isNaN_of_isFinite, not_isInf_of_isFinite, hx, hy]

theorem mul_of_isInf {x y : Word} (hx : isInf x = true) (hy : isNaN y = false) :
    mul x y = if mag y = 0 then canonicalNaN else inf (xorSign x y) := by
  simp [mul, hx, not_isNaN_of_isInf, hy, mag_ne_zero_of_isInf]

theorem mul_operands_comm (x y : Word) : mul x y = mul y x := by
  simp only [mul, xorSign, Bool.or_comm (isNaN x), Bool.or_comm (isInf x), Nat.mul_comm (mag x),
    or_comm (a := mag x = 0), bne_comm (a := sign x)]

theorem mul_of_isFinite {x y : Word} (hx : isFinite x = true) (hy : isFinite y = true) :
    mul x y = if mag x * mag y = 0 then zero (xorSign x y)
      else rne (xorSign x y) (mag x * mag y) (2 ^ 149) := by
  simp [mul, not_isNaN_of_isFinite, not_isInf_of_isFinite, hx, hy]

theorem div_of_isInf {x y : Word} (hx : isInf x = true) (hy : isInf y = true) :
    div x y = canonicalNaN := by
  simp [div, hx, hy]

theorem div_of_isInf_isFinite {x y : Word} (hx : isInf x = true) (hy : isFinite y = true) :
    div x y = inf (xorSign x y) := by
  simp [div, hx, not_isNaN_of_isInf, not_isNaN_of_isFinite, not_isInf_of_isFinite, hy]

theorem div_of_isFinite_isInf {x y : Word} (hx : isFinite x = true) (hy : isInf y = true) :
    div x y = zero (xorSign x y) := by
  simp [div, hy, not_isNaN_of_isInf, not_isNaN_of_isFinite, not_isInf_of_isFinite, hx]

theorem div_of_isFinite {x y : Word} (hx : isFinite x = true) (hy : isFinite y = true) :
    div x y = if mag y = 0 then if mag x = 0 then canonicalNaN else inf (xorSign x y)
      else if mag x = 0 then zero (xorSign x y)
      else rne (xorSign x y) (mag x * 2 ^ 149) (mag y) := by
  simp [div, not_isNaN_of_isFinite, not_isInf_of_isFinite, hx, hy]

end Sys2Proof.F32
end

section
/-! PROOFS. NaN results, the special values and the comparisons (spec/00_scope.md R12 to R14). -/

namespace Sys2Proof.F32

/-! ### NaN results

Every branch of an operation answers the canonical NaN or a word that is no NaN: an operand that is
none, a zero, an infinity or a rounding. -/

@[simp] theorem isNaN_addFinite (x y : Word) : isNaN (addFinite x y) = false := by
  unfold addFinite
  split
  · exact isNaN_zero _
  · exact isNaN_rne _ _ _

theorem add_eq_canonicalNaN_of_isNaN {x y : Word} (h : isNaN (add x y) = true) :
    add x y = canonicalNaN := by
  unfold add at h ⊢
  split_ifs at h ⊢
  all_goals simp_all

theorem mul_eq_canonicalNaN_of_isNaN {x y : Word} (h : isNaN (mul x y) = true) :
    mul x y = canonicalNaN := by
  unfold mul at h ⊢
  split_ifs at h ⊢
  all_goals simp_all

theorem div_eq_canonicalNaN_of_isNaN {x y : Word} (h : isNaN (div x y) = true) :
    div x y = canonicalNaN := by
  unfold div at h ⊢
  split_ifs at h ⊢
  all_goals simp_all

/-- Settles O27: the only NaN that a branch of an operation answers is the canonical one. -/
theorem naNResultsAreCanonical : Obligations.NaNResultsAreCanonical := by
  intro x y op hop
  simp only [List.mem_cons, List.not_mem_nil, or_false] at hop
  rcases hop with rfl | rfl | rfl | rfl
  · exact ⟨add_eq_canonicalNaN_of_isNaN, add_of_isNaN⟩
  · exact ⟨add_eq_canonicalNaN_of_isNaN, sub_of_isNaN⟩
  · exact ⟨mul_eq_canonicalNaN_of_isNaN, mul_of_isNaN⟩
  · exact ⟨div_eq_canonicalNaN_of_isNaN, div_of_isNaN⟩

/-! ### Infinities, zeros and signs -/

theorem arithmetic_of_isInf {x y : Word} (hx : isInf x = true) (hy : isInf y = true) :
    div x y = canonicalNaN ∧ mul x y = inf (xorSign x y) ∧
      add x y = (if sign x = sign y then x else canonicalNaN) ∧
      sub x y = (if sign x = sign y then canonicalNaN else x) := by
  refine ⟨div_of_isInf hx hy, ?_, add_of_isInf hx hy, ?_⟩
  · rw [mul_of_isInf hx (not_isNaN_of_isInf hy), if_neg (mag_ne_zero_of_isInf hy)]
  · rw [sub, add_of_isInf hx (by rwa [isInf_neg]), sign_neg]
    cases sign x <;> cases sign y <;> rfl

theorem arithmetic_of_isInf_isFinite {x y : Word} (hx : isInf x = true) (hy : isFinite y = true) :
    add x y = x ∧ sub x y = x ∧ add y x = x ∧ sub y x = neg x ∧
      div x y = inf (xorSign x y) ∧ div y x = zero (xorSign x y) ∧
      (val y ≠ 0 → mul x y = inf (xorSign x y) ∧ mul y x = inf (xorSign x y)) ∧
      (val y = 0 → mul x y = canonicalNaN ∧ mul y x = canonicalNaN) := by
  have hmul := mul_of_isInf hx (not_isNaN_of_isFinite hy)
  refine ⟨add_of_isInf_isFinite hx hy, add_of_isInf_isFinite hx (by rwa [isFinite_neg]),
    add_of_isFinite_isInf hy hx, add_of_isFinite_isInf hy (by rwa [isInf_neg]),
    div_of_isInf_isFinite hx hy, ?_, ?_, ?_⟩
  · rw [div_of_isFinite_isInf hy hx, xorSign, xorSign, bne_comm]
  · intro h
    rw [mul_operands_comm y x, and_self, hmul, if_neg (mt (val_eq_zero_iff y).mpr h)]
  · intro h
    rw [mul_operands_comm y x, and_self, hmul, if_pos ((val_eq_zero_iff y).mp h)]

/-- The exact sum is that of the integers in units of 2^-149. -/
theorem val_add_val (x y : Word) : val x + val y = ((units x + units y : ℤ) : ℚ) / 2 ^ 149 := by
  rw [val_eq_units, val_eq_units]
  push_cast
  ring

theorem val_add_val_eq_zero_iff (x y : Word) : val x + val y = 0 ↔ units x + units y = 0 := by
  rw [val_add_val, div_eq_zero_iff, Int.cast_eq_zero]
  simp

theorem add_of_val_add_eq_zero {x y : Word} (hx : isFinite x = true) (hy : isFinite y = true)
    (h : val x + val y = 0) : add x y = zero (sign x && sign y) := by
  rw [add_of_isFinite hx hy, addFinite, if_pos ((val_add_val_eq_zero_iff x y).mp h)]

theorem zeroResults_of_isFinite {x y : Word} (hx : isFinite x = true) (hy : isFinite y = true) :
    (val x + val y = 0 → add x y = zero (sign x && sign y)) ∧
      (val x - val y = 0 → sub x y = zero (sign x && !sign y)) ∧
      (val x * val y = 0 → mul x y = zero (xorSign x y)) ∧
      (val x = 0 → val y ≠ 0 → div x y = zero (xorSign x y)) ∧
      (val x ≠ 0 → val y = 0 → div x y = inf (xorSign x y)) ∧
      (val x = 0 → val y = 0 → div x y = canonicalNaN) := by
  have hdiv := div_of_isFinite hx hy
  simp only [ne_eq, val_eq_zero_iff, mul_eq_zero]
  refine ⟨add_of_val_add_eq_zero hx hy, ?_, ?_, ?_, ?_, ?_⟩
  · intro h
    rw [sub, add_of_val_add_eq_zero hx (by rwa [isFinite_neg]) (by rwa [val_neg, ← sub_eq_add_neg]),
      sign_neg]
  · intro h
    rw [mul_of_isFinite hx hy, if_pos (Nat.mul_eq_zero.mpr h)]
  · intro h h'
    rw [hdiv, if_neg h', if_pos h]
  · intro h h'
    rw [hdiv, if_pos h', if_neg h]
  · intro h h'
    rw [hdiv, if_pos h', if_pos h]

/-- Settles O26, by the classes of the two operands. -/
theorem specialValueArithmetic : Obligations.SpecialValueArithmetic :=
  fun _ _ _ _ => ⟨arithmetic_of_isInf, arithmetic_of_isInf_isFinite, zeroResults_of_isFinite⟩

/-! ### Comparison and negation -/

theorem lt_of_isNaN {x y : Word} (h : isNaN x = true ∨ isNaN y = true) : lt x y = false := by
  rcases h with h | h
  · simp [lt, h]
  · simp [lt, h]

theorem lt_of_not_isNaN {x y : Word} (hx : isNaN x = false) (hy : isNaN y = false) :
    lt x y = decide (units x < units y) := by
  simp [lt, hx, hy]

theorem ltNat_of_not_isNaN {x : Word} (hx : isNaN x = false) (n : Nat) :
    ltNat x n = decide (units x < n * 2 ^ 149) := by
  simp [ltNat, hx]

theorem lt_iff_val_lt {x y : Word} (hx : isFinite x = true) (hy : isFinite y = true) :
    lt x y = true ↔ val x < val y := by
  rw [lt_of_not_isNaN (not_isNaN_of_isFinite hx) (not_isNaN_of_isFinite hy), val_lt_val_iff,
    decide_eq_true_eq]

theorem units_of_isInf {x : Word} (h : isInf x = true) :
    units x = if sign x then -2 ^ 277 else 2 ^ 277 := by
  rw [units, mag_of_isInf h, Nat.cast_pow, Nat.cast_ofNat]

theorem abs_units_lt_of_isFinite {x : Word} (h : isFinite x = true) : |units x| < 2 ^ 277 := by
  rw [Int.abs_eq_natAbs, natAbs_units]
  exact_mod_cast mag_lt_of_isFinite h

theorem lt_of_isInf_isFinite {x y : Word} (hx : isInf x = true) (hy : isFinite y = true) :
    lt x y = sign x ∧ lt y x = !sign x := by
  obtain ⟨hlow, hhigh⟩ := abs_lt.mp (abs_units_lt_of_isFinite hy)
  have hxn := not_isNaN_of_isInf hx
  have hyn := not_isNaN_of_isFinite hy
  rw [lt_of_not_isNaN hxn hyn, lt_of_not_isNaN hyn hxn, units_of_isInf hx]
  cases sign x
  · exact ⟨decide_eq_false (not_lt.mpr hhigh.le), decide_eq_true hhigh⟩
  · exact ⟨decide_eq_true hlow, decide_eq_false (not_lt.mpr hlow.le)⟩

theorem lt_of_isInf {x y : Word} (hx : isInf x = true) (hy : isInf y = true) :
    lt x y = (sign x && !sign y) := by
  rw [lt_of_not_isNaN (not_isNaN_of_isInf hx) (not_isNaN_of_isInf hy), units_of_isInf hx,
    units_of_isInf hy]
  have hneg : -(2 : ℤ) ^ 277 < 2 ^ 277 := neg_lt_self (by positivity)
  cases sign x <;> cases sign y
  · exact decide_eq_false (lt_irrefl _)
  · exact decide_eq_false (not_lt.mpr hneg.le)
  · exact decide_eq_true hneg
  · exact decide_eq_false (lt_irrefl _)

theorem ltNat_of_isNaN {x : Word} (h : isNaN x = true) (n : Nat) : ltNat x n = false := by
  simp [ltNat, h]

theorem ltNat_iff_val_lt {x : Word} (hx : isFinite x = true) (n : Nat) :
    ltNat x n = true ↔ val x < n := by
  rw [ltNat_of_not_isNaN (not_isNaN_of_isFinite hx), val_eq_units, decide_eq_true_eq,
    div_lt_iff₀ (by positivity)]
  exact_mod_cast Iff.rfl

/-- An integer constant of R14 is below the magnitude that stands for an infinity. -/
theorem ltNat_of_isInf {x : Word} (hx : isInf x = true) {n : Nat} (hn : n < 2 ^ 128) :
    ltNat x n = sign x := by
  have hnonneg : (0 : ℤ) ≤ n * 2 ^ 149 := by positivity
  have hlt : (n : ℤ) * 2 ^ 149 < 2 ^ 277 := by
    rw [show (277 : ℕ) = 128 + 149 from rfl, pow_add]
    exact mul_lt_mul_of_pos_right (by exact_mod_cast hn) (by positivity)
  rw [ltNat_of_not_isNaN (not_isNaN_of_isInf hx), units_of_isInf hx]
  cases sign x
  · exact decide_eq_false (not_lt.mpr hlt.le)
  · exact decide_eq_true (lt_of_lt_of_le (neg_lt_zero.mpr (by positivity)) hnonneg)

theorem getLsbD_neg (x : Word) (k : Nat) :
    (neg x).getLsbD k = if k = 31 then !x.getLsbD k else x.getLsbD k := by
  rw [neg, show 0x80000000#32 = BitVec.twoPow 32 31 from rfl, BitVec.getLsbD_xor,
    BitVec.getLsbD_twoPow]
  by_cases h : k = 31
  · simp [h]
  · simp [h, Ne.symm h]

/-- Settles O28: `lt` compares the integers `units`, on which an infinity is 2^277 by its sign. -/
theorem comparisonIsOfValues : Obligations.ComparisonIsOfValues := fun x _ =>
  ⟨lt_of_isNaN, lt_iff_val_lt, lt_of_isInf_isFinite, lt_of_isInf,
    fun n hn => ⟨fun h => ltNat_of_isNaN h n, fun h => ltNat_iff_val_lt h n,
      fun h => ltNat_of_isInf h hn⟩,
    getLsbD_neg x⟩

end Sys2Proof.F32
end

section
/-! PROOFS. Rounding (spec/00_scope.md R11): the two data next to a magnitude, which of them the
model's `rtzBits` and `rneBits` give, and so the roundings of a rational. -/

namespace Sys2Proof.F32

/-! ### The data next to a magnitude -/

/-- The quotient of `num / den` units by the spacing there, rounded down. -/
def place (num den : Nat) : Nat := num / (den * 2 ^ spacing (num / den))

/-- The bits of the greatest datum not above `num / den` units, before saturation. -/
def truncBits (num den : Nat) : Nat := spacing (num / den) * 2 ^ 23 + place num den

theorem rtzBits_eq (n d : Nat) : rtzBits n d = min (truncBits n d) maxFiniteBits := rfl

/-- Place `m` in the spacing `2^k`: a normal significand, or any one in the lowest spacing. -/
theorem magOfBits_place {k m : Nat} (hm : m ≤ 2 ^ 24) (hk : k = 0 ∨ 2 ^ 23 ≤ m) :
    magOfBits (k * 2 ^ 23 + m) = m * 2 ^ k := by
  unfold magOfBits
  rcases lt_or_ge m (2 ^ 23) with hsub | hnorm
  · obtain rfl : k = 0 := by omega
    rw [if_pos (by omega), Nat.zero_mul, Nat.zero_add, Nat.mod_eq_of_lt hsub, pow_zero,
      Nat.mul_one]
  · rw [if_neg (by omega)]
    rcases eq_or_lt_of_le hm with rfl | hlt
    · rw [show (k * 2 ^ 23 + 2 ^ 24) / 2 ^ 23 - 1 = k + 1 by omega,
        show (k * 2 ^ 23 + 2 ^ 24) % 2 ^ 23 = 0 by omega, pow_succ 2 k]
      ring
    · rw [show (k * 2 ^ 23 + m) / 2 ^ 23 - 1 = k by omega,
        show 2 ^ 23 + (k * 2 ^ 23 + m) % 2 ^ 23 = m by omega]

/-- The quotient by the spacing has at most 24 bits, and 24 of them above the lowest spacing. -/
theorem place_bounds (n d : Nat) :
    place n d < 2 ^ 24 ∧ (spacing (n / d) = 0 ∨ 2 ^ 23 ≤ place n d) := by
  rw [place, ← Nat.div_div_eq_div_mul]
  rcases Nat.eq_zero_or_pos (n / d) with h0 | hpos
  · simp [h0, spacing]
  · have hlow : 2 ^ Nat.log2 (n / d) ≤ n / d := Nat.log2_self_le hpos.ne'
    have hhigh : n / d < 2 ^ (Nat.log2 (n / d) + 1) := Nat.lt_log2_self
    constructor
    · rw [Nat.div_lt_iff_lt_mul (Nat.two_pow_pos _), ← pow_add]
      exact hhigh.trans_le (Nat.pow_le_pow_right two_pos (by simp only [spacing]; omega))
    · rw [Nat.le_div_iff_mul_le (Nat.two_pow_pos _), ← pow_add]
      rcases Nat.lt_or_ge (Nat.log2 (n / d)) 23 with hlog | hlog
      · exact .inl (by simp only [spacing]; omega)
      · right
        rwa [show 23 + spacing (n / d) = Nat.log2 (n / d) by simp only [spacing]; omega]

theorem magOfBits_truncBits (n d : Nat) :
    magOfBits (truncBits n d) = place n d * 2 ^ spacing (n / d) := by
  obtain ⟨hlt, hnorm⟩ := place_bounds n d
  exact magOfBits_place hlt.le hnorm

theorem magOfBits_truncBits_succ (n d : Nat) :
    magOfBits (truncBits n d + 1) = (place n d + 1) * 2 ^ spacing (n / d) := by
  obtain ⟨hlt, hnorm⟩ := place_bounds n d
  rw [truncBits, Nat.add_assoc]
  exact magOfBits_place hlt (hnorm.imp_right fun h => h.trans (Nat.le_succ _))

/-- A magnitude lies from its truncation to below the next datum. -/
theorem truncBits_brackets (n : Nat) {d : Nat} (hd : 0 < d) :
    magOfBits (truncBits n d) * d ≤ n ∧ n < magOfBits (truncBits n d + 1) * d := by
  have hstep : 0 < d * 2 ^ spacing (n / d) := by positivity
  rw [magOfBits_truncBits, magOfBits_truncBits_succ, Nat.mul_assoc, Nat.mul_assoc,
    Nat.mul_comm _ d]
  exact ⟨Nat.div_mul_le_self _ _, Nat.lt_mul_of_div_lt (Nat.lt_succ_self _) hstep⟩

/-- `rneBits` is the truncation or the next datum, by the side of their midpoint, and at the
midpoint by the parity of the truncation. -/
theorem rneBits_eq (n d : Nat) :
    rneBits n d = min
      (if (magOfBits (truncBits n d) + magOfBits (truncBits n d + 1)) * d < 2 * n ∨
          ((magOfBits (truncBits n d) + magOfBits (truncBits n d + 1)) * d = 2 * n ∧
            truncBits n d % 2 = 1)
        then truncBits n d + 1 else truncBits n d) infBits := by
  have hsum : (magOfBits (truncBits n d) + magOfBits (truncBits n d + 1)) * d =
      2 * (d * 2 ^ spacing (n / d) * place n d) + d * 2 ^ spacing (n / d) := by
    rw [magOfBits_truncBits, magOfBits_truncBits_succ]
    ring
  have hdiv : d * 2 ^ spacing (n / d) * place n d + n % (d * 2 ^ spacing (n / d)) = n :=
    Nat.div_add_mod _ _
  have hparity : truncBits n d % 2 = n / (d * 2 ^ spacing (n / d)) % 2 := by
    unfold truncBits place
    omega
  have hside {step whole rest : Nat} (h : whole + rest = n) :
      (step < 2 * rest ↔ 2 * whole + step < 2 * n) ∧
        (2 * rest = step ↔ 2 * whole + step = 2 * n) := by
    omega
  obtain ⟨hlt, heq⟩ := hside (step := d * 2 ^ spacing (n / d)) hdiv
  simp only [hsum, hparity, ← hlt, ← heq, rneBits, roundHalfEven]
  split
  · rw [truncBits, place, Nat.add_assoc]
  · rw [truncBits, place]

/-! ### The nearest datum of a magnitude -/

/-- Magnitude bits `b` whose datum is nearest to `r` units, and even where another is as near. -/
def NearestEven (r : ℚ) (b : Nat) : Prop :=
  ∀ b', |r - magOfBits b| ≤ |r - magOfBits b'| ∧
    (|r - magOfBits b'| = |r - magOfBits b| → b' ≠ b → b % 2 = 0)

section Bracket

variable {r : ℚ} {b : Nat}

/-- Below the midpoint of the data around it, or there with an even lower one, the lower one. -/
theorem nearestEven_lower (hlow : magOfBits b ≤ r)
    (hside : 2 * r < magOfBits b + magOfBits (b + 1) ∨
      (2 * r = magOfBits b + magOfBits (b + 1) ∧ b % 2 = 0)) : NearestEven r b := by
  intro b'
  rw [abs_of_nonneg (sub_nonneg.mpr hlow)]
  rcases lt_trichotomy b' b with hlt | rfl | hgt
  · have hmono : (magOfBits b' : ℚ) < magOfBits b := by exact_mod_cast magOfBits_strictMono hlt
    have habs := le_abs_self (r - magOfBits b')
    exact ⟨by linarith, fun h => by linarith⟩
  · exact ⟨le_abs_self _, fun _ h => absurd rfl h⟩
  · have hmono : (magOfBits (b + 1) : ℚ) ≤ magOfBits b' := by
      exact_mod_cast magOfBits_le_iff.mpr hgt
    have habs := neg_le_abs (r - magOfBits b')
    rcases hside with hside | ⟨hside, heven⟩
    · exact ⟨by linarith, fun h => by linarith⟩
    · exact ⟨by linarith, fun _ _ => heven⟩

/-- Above the midpoint, or there with an odd lower datum, the upper one. -/
theorem nearestEven_upper (hhigh : r ≤ magOfBits (b + 1))
    (hside : (magOfBits b + magOfBits (b + 1) : ℚ) < 2 * r ∨
      ((magOfBits b + magOfBits (b + 1) : ℚ) = 2 * r ∧ b % 2 = 1)) : NearestEven r (b + 1) := by
  intro b'
  rw [abs_of_nonpos (sub_nonpos.mpr hhigh)]
  rcases lt_trichotomy b' (b + 1) with hlt | rfl | hgt
  · have hmono : (magOfBits b' : ℚ) ≤ magOfBits b := by
      exact_mod_cast magOfBits_le_iff.mpr (Nat.le_of_lt_succ hlt)
    have habs := le_abs_self (r - magOfBits b')
    rcases hside with hside | ⟨hside, hodd⟩
    · exact ⟨by linarith, fun h => by linarith⟩
    · exact ⟨by linarith, fun _ _ => by omega⟩
  · exact ⟨neg_le_abs _, fun _ h => absurd rfl h⟩
  · have hmono : (magOfBits (b + 1) : ℚ) < magOfBits b' := by
      exact_mod_cast magOfBits_strictMono hgt
    have habs := neg_le_abs (r - magOfBits b')
    exact ⟨by linarith, fun h => by linarith⟩

end Bracket

/-- `rneBits` gives the nearest datum, ties to even, cut off at infinity (R11). -/
theorem rneBits_nearestEven (n : Nat) {d : Nat} (hd : 0 < d) :
    ∃ b, NearestEven (n / d) b ∧ rneBits n d = min b infBits := by
  have hd' : (0 : ℚ) < d := by exact_mod_cast hd
  obtain ⟨hlow, hhigh⟩ := truncBits_brackets n hd
  refine ⟨_, ?_, rneBits_eq n d⟩
  split
  next h =>
    refine nearestEven_upper ((div_le_iff₀ hd').mpr (by exact_mod_cast hhigh.le)) ?_
    rw [← mul_div_assoc, lt_div_iff₀ hd', eq_div_iff hd'.ne']
    exact_mod_cast h
  next h =>
    refine nearestEven_lower ((le_div_iff₀ hd').mpr (by exact_mod_cast hlow)) ?_
    rw [← mul_div_assoc, div_lt_iff₀ hd', div_eq_iff hd'.ne']
    norm_cast
    omega

/-- The midpoint of the largest finite datum and the one above it, 2^128 - 2^103 in units. -/
theorem magOfBits_overflow_midpoint :
    (magOfBits maxFiniteBits + magOfBits infBits : ℚ) = 2 * ((2 ^ 128 - 2 ^ 103) * 2 ^ 149) := by
  have hinf : (magOfBits infBits : ℚ) = 2 ^ 128 * 2 ^ 149 := by
    exact_mod_cast (by decide +kernel : magOfBits infBits = 2 ^ 128 * 2 ^ 149)
  have hmax : (magOfBits maxFiniteBits : ℚ) + 2 ^ 104 * 2 ^ 149 = 2 ^ 128 * 2 ^ 149 := by
    have hnat : magOfBits maxFiniteBits + 2 ^ 104 * 2 ^ 149 = 2 ^ 128 * 2 ^ 149 := by
      decide +kernel
    simpa only [Nat.cast_add, Nat.cast_mul, Nat.cast_pow, Nat.cast_ofNat] using
      congrArg (Nat.cast : ℕ → ℚ) hnat
  rw [hinf, eq_sub_of_add_eq hmax]
  ring

theorem NearestEven.le_maxFiniteBits {r : ℚ} {b : Nat} (h : NearestEven r b)
    (hr : r < (2 ^ 128 - 2 ^ 103) * 2 ^ 149) : b ≤ maxFiniteBits := by
  by_contra hgt
  have hinf : (magOfBits infBits : ℚ) ≤ magOfBits b := by
    exact_mod_cast magOfBits_le_iff.mpr (Nat.lt_of_not_le hgt)
  have hmax : (magOfBits maxFiniteBits : ℚ) < magOfBits infBits := by
    exact_mod_cast magOfBits_strictMono (by decide)
  have hmid := magOfBits_overflow_midpoint
  have hnear := (h maxFiniteBits).1
  rw [abs_of_nonpos (by linarith), le_abs] at hnear
  rcases hnear with hnear | hnear
  · linarith
  · linarith

/-- From the midpoint on infinity is at least as near as any finite datum, and the largest of these
is odd. -/
theorem NearestEven.infBits_le {r : ℚ} {b : Nat} (h : NearestEven r b)
    (hr : (2 ^ 128 - 2 ^ 103) * 2 ^ 149 ≤ r) : infBits ≤ b := by
  by_contra hlt
  have hb : b ≤ maxFiniteBits := Nat.le_of_lt_succ (Nat.lt_of_not_le hlt)
  have hmax : (magOfBits b : ℚ) ≤ magOfBits maxFiniteBits := by
    exact_mod_cast magOfBits_le_iff.mpr hb
  have hinf : (magOfBits maxFiniteBits : ℚ) < magOfBits infBits := by
    exact_mod_cast magOfBits_strictMono (by decide)
  have hmid := magOfBits_overflow_midpoint
  obtain ⟨hnear, htie⟩ := h infBits
  have habs : |r - magOfBits infBits| ≤ r - magOfBits b := abs_le.mpr ⟨by linarith, by linarith⟩
  rw [abs_of_nonneg (by linarith : (0 : ℚ) ≤ r - magOfBits b)] at hnear htie
  have heven := htie (le_antisymm habs hnear) (by omega)
  have hbmax : (magOfBits maxFiniteBits : ℚ) ≤ magOfBits b := by
    rcases le_abs.mp hnear with hnear | hnear
    · linarith
    · linarith
  have hodd : b = maxFiniteBits :=
    le_antisymm hb (magOfBits_le_iff.mp (by exact_mod_cast hbmax))
  rw [hodd] at heven
  exact absurd heven (by decide)

/-! ### Rounding a rational -/

/-- The magnitude of `q` in units of 2^-149, as the ratio that the roundings are given. -/
theorem abs_mul_units (q : ℚ) :
    ((q.num.natAbs * 2 ^ 149 : ℕ) : ℚ) / q.den = |q| * 2 ^ 149 := by
  have hnum : (q.num.natAbs : ℚ) = |q| * q.den := by
    rw [Nat.cast_natAbs, Int.cast_abs, ← Rat.mul_den_eq_num, abs_mul, Nat.abs_cast]
  have hden : (q.den : ℚ) ≠ 0 := by exact_mod_cast q.den_nz
  push_cast
  rw [hnum, div_eq_iff hden]
  ring

theorem roundNearest_of_ne_zero {q : ℚ} (hq : q ≠ 0) :
    roundNearest q = rne (decide (q < 0)) (q.num.natAbs * 2 ^ 149) q.den := by
  rw [roundNearest, if_neg hq]

theorem roundTowardZero_of_ne_zero {q : ℚ} (hq : q ≠ 0) :
    roundTowardZero q = pack (decide (q < 0)) (rtzBits (q.num.natAbs * 2 ^ 149) q.den) := by
  rw [roundTowardZero, if_neg hq]

@[simp] theorem sign_roundNearest {q : ℚ} (hq : q ≠ 0) :
    sign (roundNearest q) = decide (q < 0) := by
  rw [roundNearest_of_ne_zero hq, sign_rne]

/-- The bits of RNE(q): those nearest, cut off at infinity. -/
theorem bits_roundNearest {q : ℚ} (hq : q ≠ 0) :
    ∃ b, NearestEven (|q| * 2 ^ 149) b ∧ bits (roundNearest q) = min b infBits := by
  rw [roundNearest_of_ne_zero hq, bits_rne, ← abs_mul_units]
  exact rneBits_nearestEven _ q.den_pos

/-- The distance from `q` of a datum, by their magnitudes in units. -/
theorem abs_abs_sub_abs_val (q : ℚ) (y : Word) :
    |(|q| - |val y|)| = |(|q| * 2 ^ 149 - magOfBits (bits y))| / 2 ^ 149 := by
  have hpos : (0 : ℚ) < 2 ^ 149 := by positivity
  rw [abs_val, mag_eq, ← abs_of_pos hpos, ← abs_div, abs_of_pos hpos, sub_div,
    mul_div_cancel_right₀ _ hpos.ne']

/-- A datum of the sign of `q` is as far from it as their magnitudes are apart. -/
theorem abs_sub_val_of_sign {q : ℚ} {x : Word} (h : sign x = decide (q < 0)) :
    |q - val x| = |(|q| - |val x|)| := by
  rw [val_of_sign x, h]
  rcases lt_or_ge q 0 with hq | hq
  · rw [abs_of_neg hq]
    simp only [hq, decide_true, if_true, abs_neg, abs_abs]
    rw [← abs_neg]
    congr 1
    ring
  · rw [abs_of_nonneg hq]
    simp [hq.not_gt]

/-- Two data as far from `q ≠ 0` have unlike magnitudes or are of equal value. -/
theorem val_eq_of_abs_sub_eq {q : ℚ} (hq : q ≠ 0) {x y : Word} (hbits : bits y = bits x)
    (h : |q - val y| = |q - val x|) : val y = val x := by
  have habs : |val y| = |val x| := by rw [abs_val, abs_val, mag_eq, mag_eq, hbits]
  rcases abs_eq_abs.mp habs with heq | hopp
  · exact heq
  · have hsq := (sq_eq_sq_iff_abs_eq_abs _ _).mpr h
    rw [hopp] at hsq ⊢
    have hx : q * val x = 0 := by linarith
    rw [(mul_eq_zero.mp hx).resolve_left hq, neg_zero]

/-- RNE(q) is at least as near as any datum; where another value is as near, its fraction is
even. -/
theorem roundNearest_nearest {q : ℚ} (hq : q ≠ 0)
    (hnear : NearestEven (|q| * 2 ^ 149) (bits (roundNearest q))) (y : Word) :
    |q - val (roundNearest q)| ≤ |q - val y| ∧
      (|q - val y| = |q - val (roundNearest q)| → val y ≠ val (roundNearest q) →
        frac (roundNearest q) % 2 = 0) := by
  have hround := abs_sub_val_of_sign (sign_roundNearest hq)
  have hbelow : |(|q| - |val y|)| ≤ |q - val y| := abs_abs_sub_abs_le_abs_sub q (val y)
  obtain ⟨hle, htie⟩ := hnear (bits y)
  have hle' : |(|q| - |val (roundNearest q)|)| ≤ |(|q| - |val y|)| := by
    rw [abs_abs_sub_abs_val, abs_abs_sub_abs_val]
    exact div_le_div_of_nonneg_right hle (by positivity)
  refine ⟨by linarith, fun heq hne => ?_⟩
  have hbits : bits y ≠ bits (roundNearest q) := fun h => hne (val_eq_of_abs_sub_eq hq h heq)
  have hsame : |(|q| - |val y|)| = |(|q| - |val (roundNearest q)|)| := by linarith
  rw [abs_abs_sub_abs_val, abs_abs_sub_abs_val, div_left_inj' (by positivity)] at hsame
  have heven := htie hsame hbits
  rw [frac_eq_bits]
  omega

theorem roundNearest_of_lt {q : ℚ} (hq : q ≠ 0) (hlt : |q| < 2 ^ 128 - 2 ^ 103) :
    isFinite (roundNearest q) = true ∧
      NearestEven (|q| * 2 ^ 149) (bits (roundNearest q)) := by
  obtain ⟨b, hnear, hbits⟩ := bits_roundNearest hq
  have hmax := hnear.le_maxFiniteBits (mul_lt_mul_of_pos_right hlt (by positivity))
  have hlt' : b < infBits := Nat.lt_succ_of_le hmax
  rw [hbits, min_eq_left hlt'.le]
  refine ⟨?_, hnear⟩
  rw [isFinite_iff_bits, hbits, min_eq_left hlt'.le, decide_eq_true hlt']

theorem roundNearest_of_ge {q : ℚ} (hq : q ≠ 0) (hge : 2 ^ 128 - 2 ^ 103 ≤ |q|) :
    roundNearest q = inf (decide (q < 0)) := by
  obtain ⟨b, hnear, hbits⟩ := bits_roundNearest hq
  have hinf := hnear.infBits_le (mul_le_mul_of_nonneg_right hge (by positivity))
  rw [← pack_sign_bits (roundNearest q), hbits, min_eq_right hinf, sign_roundNearest hq, inf]

theorem bits_roundTowardZero {q : ℚ} (hq : q ≠ 0) :
    bits (roundTowardZero q) =
      min (truncBits (q.num.natAbs * 2 ^ 149) q.den) maxFiniteBits := by
  rw [roundTowardZero_of_ne_zero hq,
    bits_pack _ (lt_of_le_of_lt (rtzBits_le _ _) (by decide)), rtzBits_eq]

@[simp] theorem sign_roundTowardZero {q : ℚ} (hq : q ≠ 0) :
    sign (roundTowardZero q) = decide (q < 0) := by
  rw [roundTowardZero_of_ne_zero hq, sign_pack _ (lt_of_le_of_lt (rtzBits_le _ _) (by decide))]

theorem isFinite_roundTowardZero {q : ℚ} (hq : q ≠ 0) : isFinite (roundTowardZero q) = true := by
  rw [isFinite_iff_bits, bits_roundTowardZero hq, decide_eq_true_eq]
  exact lt_of_le_of_lt (Nat.min_le_right _ _) (by decide)

theorem abs_val_le_iff (q : ℚ) (y : Word) :
    |val y| ≤ |q| ↔ magOfBits (bits y) * q.den ≤ q.num.natAbs * 2 ^ 149 := by
  have hden : (0 : ℚ) < q.den := by exact_mod_cast q.den_pos
  rw [abs_val, mag_eq, div_le_iff₀ (by positivity), ← abs_mul_units, le_div_iff₀ hden]
  exact_mod_cast Iff.rfl

/-- RTZ(q) does not exceed `q` in magnitude, and no finite datum between exceeds it. -/
theorem roundTowardZero_greatest {q : ℚ} (hq : q ≠ 0) :
    |val (roundTowardZero q)| ≤ |q| ∧
      ∀ y, isFinite y = true → |val y| ≤ |q| → |val y| ≤ |val (roundTowardZero q)| := by
  obtain ⟨hlow, hhigh⟩ := truncBits_brackets (q.num.natAbs * 2 ^ 149) q.den_pos
  constructor
  · rw [abs_val_le_iff, bits_roundTowardZero hq]
    exact (Nat.mul_le_mul_right _ (magOfBits_le_iff.mpr (Nat.min_le_left _ _))).trans hlow
  · intro y hy hle
    rw [abs_val_le_iff] at hle
    have htrunc : bits y ≤ truncBits (q.num.natAbs * 2 ^ 149) q.den :=
      Nat.le_of_lt_succ (magOfBits_strictMono.lt_iff_lt.mp
        (lt_of_mul_lt_mul_right (hle.trans_lt hhigh) (Nat.zero_le _)))
    have hmax : bits y ≤ maxFiniteBits := by
      rw [isFinite_iff_bits, decide_eq_true_eq] at hy
      exact Nat.le_of_lt_succ hy
    rw [abs_val, abs_val, mag_eq, mag_eq, bits_roundTowardZero hq]
    exact div_le_div_of_nonneg_right
      (by exact_mod_cast magOfBits_le_iff.mpr (le_min htrunc hmax)) (by positivity)

/-- Settles O24: the data of the two bits `truncBits` and its successor bracket the magnitude, and
each rounding takes the right one of them. -/
theorem roundingGivesTheNearestDatum : Obligations.RoundingGivesTheNearestDatum := by
  intro q hq
  refine ⟨fun hlt => ?_, roundNearest_of_ge hq, isFinite_roundTowardZero hq,
    sign_roundTowardZero hq, roundTowardZero_greatest hq⟩
  obtain ⟨hfin, hnear⟩ := roundNearest_of_lt hq hlt
  exact ⟨hfin, fun y _ => roundNearest_nearest hq hnear y⟩

/-! ### Each operation rounds its exact result once -/

theorem roundHalfEven_mul_right (n d : Nat) {c : Nat} (hc : 0 < c) :
    roundHalfEven (n * c) (d * c) = roundHalfEven n d := by
  have hlt : d * c < 2 * (n % d * c) ↔ d < 2 * (n % d) := by
    rw [← Nat.mul_assoc, Nat.mul_lt_mul_right hc]
  have heq : 2 * (n % d * c) = d * c ↔ 2 * (n % d) = d := by
    rw [← Nat.mul_assoc, Nat.mul_left_inj hc.ne']
  simp only [roundHalfEven, Nat.mul_div_mul_right _ _ hc, Nat.mul_mod_mul_right, hlt, heq]

theorem rneBits_mul_right (n d : Nat) {c : Nat} (hc : 0 < c) :
    rneBits (n * c) (d * c) = rneBits n d := by
  rw [rneBits, rneBits, Nat.mul_div_mul_right _ _ hc, Nat.mul_right_comm,
    roundHalfEven_mul_right _ _ hc]

/-- The rounding of a ratio does not depend on how it is written. -/
theorem rneBits_congr {n d n' d' : Nat} (hd : 0 < d) (hd' : 0 < d')
    (h : (n : ℚ) / d = n' / d') : rneBits n d = rneBits n' d' := by
  rw [div_eq_div_iff (by exact_mod_cast hd.ne') (by exact_mod_cast hd'.ne')] at h
  have hcross : n * d' = n' * d := by exact_mod_cast h
  rw [← rneBits_mul_right n d hd', hcross, Nat.mul_comm d d', rneBits_mul_right n' d' hd]

/-- RNE(q) is `rne` of the sign and of any ratio that is the magnitude of `q` in units. -/
theorem roundNearest_eq_rne {q : ℚ} (hq : q ≠ 0) {n d : Nat} (hd : 0 < d)
    (h : |q| * 2 ^ 149 = n / d) : roundNearest q = rne (decide (q < 0)) n d := by
  rw [roundNearest_of_ne_zero hq, rne, rne,
    rneBits_congr q.den_pos hd ((abs_mul_units q).trans h)]

theorem addFinite_eq_roundNearest {x y : Word} (h : val x + val y ≠ 0) :
    addFinite x y = roundNearest (val x + val y) := by
  have hsign : val x + val y < 0 ↔ units x + units y < 0 := by
    rw [val_add_val, div_lt_iff₀ (by positivity), zero_mul, Int.cast_lt_zero]
  have hmag : |val x + val y| * 2 ^ 149 = ((units x + units y).natAbs : ℚ) / (1 : ℕ) := by
    rw [val_add_val, abs_div, abs_of_pos (by positivity : (0 : ℚ) < 2 ^ 149),
      div_mul_cancel₀ _ (by positivity), Nat.cast_natAbs, Int.cast_abs, Nat.cast_one, div_one]
  rw [roundNearest_eq_rne h one_pos hmag, addFinite,
    if_neg (mt (val_add_val_eq_zero_iff x y).mpr h), decide_eq_decide.mpr hsign]

theorem add_eq_roundNearest {x y : Word} (hx : isFinite x = true) (hy : isFinite y = true)
    (h : val x + val y ≠ 0) : add x y = roundNearest (val x + val y) := by
  rw [add_of_isFinite hx hy, addFinite_eq_roundNearest h]

theorem sub_eq_roundNearest {x y : Word} (hx : isFinite x = true) (hy : isFinite y = true)
    (h : val x - val y ≠ 0) : sub x y = roundNearest (val x - val y) := by
  rw [sub_eq_add_neg, ← val_neg] at h ⊢
  exact add_eq_roundNearest hx (by rwa [isFinite_neg]) h

/-- The sign of a nonzero product is the XOR of the signs. -/
theorem xorSign_eq_decide_mul {x y : Word} (hx : val x ≠ 0) (hy : val y ≠ 0) :
    xorSign x y = decide (val x * val y < 0) := by
  have hpos : 0 < |val x| * |val y| := mul_pos (abs_pos.mpr hx) (abs_pos.mpr hy)
  rw [val_of_sign x, val_of_sign y, xorSign]
  cases sign x <;> cases sign y
  · simp [hpos.le]
  · simp [hpos]
  · simp [hpos]
  · simp [hpos.le]

theorem mul_eq_roundNearest {x y : Word} (hx : isFinite x = true) (hy : isFinite y = true)
    (h : val x * val y ≠ 0) : mul x y = roundNearest (val x * val y) := by
  obtain ⟨hx0, hy0⟩ := mul_ne_zero_iff.mp h
  have hmag : |val x * val y| * 2 ^ 149 =
      ((mag x * mag y : ℕ) : ℚ) / ((2 ^ 149 : ℕ) : ℚ) := by
    rw [abs_mul, abs_val, abs_val]
    push_cast
    ring
  have hne : mag x * mag y ≠ 0 :=
    Nat.mul_ne_zero (mt (val_eq_zero_iff x).mpr hx0) (mt (val_eq_zero_iff y).mpr hy0)
  rw [mul_of_isFinite hx hy, if_neg hne, xorSign_eq_decide_mul hx0 hy0,
    roundNearest_eq_rne h (by positivity) hmag]

theorem div_eq_roundNearest {x y : Word} (hx : isFinite x = true) (hy : isFinite y = true)
    (hx0 : val x ≠ 0) (hy0 : val y ≠ 0) : div x y = roundNearest (val x / val y) := by
  have hxmag := mt (val_eq_zero_iff x).mpr hx0
  have hymag := mt (val_eq_zero_iff y).mpr hy0
  have hmag : |val x / val y| * 2 ^ 149 = ((mag x * 2 ^ 149 : ℕ) : ℚ) / mag y := by
    rw [abs_div, abs_val, abs_val, div_div_div_cancel_right₀ (by positivity), div_mul_eq_mul_div,
      Nat.cast_mul, Nat.cast_pow, Nat.cast_ofNat]
  have hsign : xorSign x y = decide (val x / val y < 0) := by
    rw [xorSign_eq_decide_mul hx0 hy0, decide_eq_decide, mul_neg_iff, div_neg_iff]
  rw [div_of_isFinite hx hy, if_neg hymag, if_neg hxmag, hsign,
    roundNearest_eq_rne (div_ne_zero hx0 hy0) (Nat.pos_of_ne_zero hymag) hmag]

/-- Settles O25: the ratio of integers that each operation hands to `rne` is its exact result. -/
theorem arithmeticRoundsTheExactResult : Obligations.ArithmeticRoundsTheExactResult :=
  fun _ _ hx hy => ⟨add_eq_roundNearest hx hy, sub_eq_roundNearest hx hy,
    mul_eq_roundNearest hx hy, div_eq_roundNearest hx hy⟩

end Sys2Proof.F32
end

section
/-! PROOFS. What one command leaves unchanged: the frame of every shared operation on the registers
(spec/10_state.md R31 to R41), the delay RAM and the parameters (R32, R42, R43). -/

namespace Sys2Proof.Machine

/-! ### The state a command leaves -/

/-- The state that a command leaves: `exec` read as a function of the state. -/
def State.afterExec (s : State) (i : Instr) : State :=
  match exec i s with
  | .next t => t
  | .fault _ => s
  | .refused _ => s

theorem State.afterExec_of_exec {i : Instr} {s t : State} (h : exec i s = .next t) :
    s.afterExec i = t := by
  simp [State.afterExec, h]

theorem State.afterExec_rdreg (s : State) (r : Reg) :
    s.afterExec (.rdreg r) = s.answer (s.readReg r) := rfl

theorem State.afterExec_wrreg {r : Reg} (h : r ≠ .cfg) (s : State) (v : Word) :
    s.afterExec (.wrreg r v) = (s.writeReg r v).answer 0 :=
  State.afterExec_of_exec (exec_wrreg h v s)

theorem State.afterExec_qsin (s : State) (index : Word) :
    s.afterExec (.qsin index) =
      if s.config.steps < index.toNat then s.refuse
      else s.answer (romRead s.config index.toNat) := by
  split
  next habove => exact State.afterExec_of_exec (exec_qsin_above habove)
  next hwithin => exact State.afterExec_of_exec (exec_qsin_within (Nat.not_lt.mp hwithin))

/-! ### The registers each shared operation leaves -/

section Registers

variable {r : Reg} (s : State)

@[simp] theorem State.readReg_answer (res : Word) : (s.answer res).readReg r = s.readReg r := by
  cases r <;> rfl

theorem State.readReg_raise (h : r ≠ .status) (f : Flag) :
    (s.raise f).readReg r = s.readReg r := by
  cases r with
  | status => exact absurd rfl h
  | _ => rfl

theorem State.readReg_raiseIf (h : r ≠ .status) (b : Bool) (f : Flag) :
    (s.raiseIf b f).readReg r = s.readReg r := by
  cases b with
  | false => rfl
  | true => exact s.readReg_raise h f

theorem State.readReg_refuse (h : r ≠ .status) : s.refuse.readReg r = s.readReg r := by
  cases r with
  | status => exact absurd rfl h
  | _ => rfl

theorem State.readReg_delayRead (h : r ≠ .status) (d : Word) :
    (s.delayRead d).readReg r = s.readReg r :=
  s.readReg_raiseIf h _ _

theorem State.readReg_delayWrite (h : r ≠ .cursor) (v : Word) :
    (s.delayWrite v).readReg r = s.readReg r := by
  cases r with
  | cursor => exact absurd rfl h
  | _ => rfl

theorem State.readReg_advancePhase (h : r ≠ .phase) : s.advancePhase.readReg r = s.readReg r := by
  cases r with
  | phase => exact absurd rfl h
  | _ => rfl

theorem State.readReg_setStep (h : r ≠ .incr) (v : Word) :
    (s.setStep v).readReg r = s.readReg r := by
  cases r with
  | incr => exact absurd rfl h
  | _ => rfl

theorem State.readReg_setPeriod (hincr : r ≠ .incr) (hstatus : r ≠ .status) (ms : Word) :
    (s.setPeriod ms).readReg r = s.readReg r :=
  (State.readReg_setStep _ hincr _).trans (s.readReg_raiseIf hstatus _ _)

theorem State.readReg_smooth (h : r ≠ .curdly) : s.smooth.readReg r = s.readReg r := by
  cases r with
  | curdly => exact absurd rfl h
  | _ => rfl

theorem State.readReg_setFeedback (h : r ≠ .feedback) (v : Word) :
    (s.setFeedback v).readReg r = s.readReg r := by
  cases r with
  | feedback => exact absurd rfl h
  | _ => rfl

theorem State.readReg_setTgtdly (h : r ≠ .tgtdly) (v : Word) :
    (s.setTgtdly v).readReg r = s.readReg r := by
  cases r with
  | tgtdly => exact absurd rfl h
  | _ => rfl

theorem State.readReg_echoSetTarget (htgtdly : r ≠ .tgtdly) (hstatus : r ≠ .status) (p1 : Word) :
    (s.echoSetTarget p1).readReg r = s.readReg r := by
  unfold State.echoSetTarget
  split
  · exact s.readReg_setTgtdly htgtdly _
  · exact s.readReg_raise hstatus _

theorem State.readReg_echoInit (htgtdly : r ≠ .tgtdly) (hincr : r ≠ .incr)
    (hfeedback : r ≠ .feedback) (hstatus : r ≠ .status) (p1 p3 p4 : Word) :
    (s.echoInit p1 p3 p4).readReg r = s.readReg r := by
  rw [State.echoInit, State.readReg_raise _ hstatus, State.readReg_setFeedback _ hfeedback,
    State.readReg_setPeriod _ hincr hstatus, State.readReg_echoSetTarget _ htgtdly hstatus]

theorem State.readReg_echoStep (hcursor : r ≠ .cursor) (hstatus : r ≠ .status) (x : Word) :
    (s.echoStep x).readReg r = s.readReg r :=
  (State.readReg_delayWrite _ hcursor _).trans (s.readReg_delayRead hstatus _)

end Registers

/-! ### The frame of a command -/

theorem ne_of_mayWrite {r q : Reg} {i : Instr} (hr : mayWrite r i = false)
    (hq : mayWrite q i = true) : r ≠ q := by
  rintro rfl
  exact absurd (hr.symm.trans hq) Bool.false_ne_true

theorem mayWrite_wrreg_self {r : Reg} (h : r ≠ .cfg) (v : Word) :
    mayWrite r (.wrreg r v) = true := by
  cases r with
  | cfg => exact absurd rfl h
  | _ => rfl

/-- A command keeps every register it is not named for in R33 to R41. -/
theorem State.readReg_afterExec {r : Reg} {i : Instr} (h : mayWrite r i = false) (s : State) :
    (s.afterExec i).readReg r = s.readReg r := by
  cases i with
  | nop | rdreg | u2f | f2u | pow2m1 | limit => exact s.readReg_answer _
  | wrreg q v =>
    by_cases hq : q = .cfg
    · subst hq
      exact s.readReg_refuse (ne_of_mayWrite h rfl)
    · rw [State.afterExec_wrreg hq, State.readReg_answer,
        s.readReg_writeReg_other v (ne_of_mayWrite h (mayWrite_wrreg_self hq v))]
  | fastpow => exact (State.readReg_answer _ _).trans (s.readReg_raiseIf (ne_of_mayWrite h rfl) _ _)
  | qsin index =>
    rw [State.afterExec_qsin]
    split
    · exact s.readReg_refuse (ne_of_mayWrite h rfl)
    · exact s.readReg_answer _
  | dlywr => exact (State.readReg_answer _ _).trans (s.readReg_delayWrite (ne_of_mayWrite h rfl) _)
  | dlyrd => exact (State.readReg_answer _ _).trans (s.readReg_delayRead (ne_of_mayWrite h rfl) _)
  | lfostepSine | lfostepTri | lfostepSaw =>
    exact (State.readReg_answer _ _).trans (s.readReg_advancePhase (ne_of_mayWrite h rfl))
  | lfosetstep | lfosetfreq =>
    exact (State.readReg_answer _ _).trans (s.readReg_setStep (ne_of_mayWrite h rfl) _)
  | lfosetper =>
    exact (State.readReg_answer _ _).trans
      (s.readReg_setPeriod (ne_of_mayWrite h rfl) (ne_of_mayWrite h rfl) _)
  | smooth => exact (State.readReg_answer _ _).trans (s.readReg_smooth (ne_of_mayWrite h rfl))
  | echoinit =>
    exact (State.readReg_answer _ _).trans
      (s.readReg_echoInit (ne_of_mayWrite h rfl) (ne_of_mayWrite h rfl) (ne_of_mayWrite h rfl)
        (ne_of_mayWrite h rfl) _ _ _)
  | echostep =>
    exact (State.readReg_answer _ _).trans
      (s.readReg_echoStep (ne_of_mayWrite h rfl) (ne_of_mayWrite h rfl) _)
  | echosample =>
    exact ((State.readReg_answer _ _).trans
      (s.smooth.readReg_echoStep (ne_of_mayWrite h rfl) (ne_of_mayWrite h rfl) _)).trans
      (s.readReg_smooth (ne_of_mayWrite h rfl))

/-- No command changes the parameters or the ROM (R32, R43). -/
theorem State.afterExec_config (s : State) (i : Instr) : (s.afterExec i).config = s.config := by
  cases i with
  | wrreg q v =>
    by_cases hq : q = .cfg
    · subst hq
      exact s.refuse_config
    · rw [State.afterExec_wrreg hq, State.answer_config, State.writeReg_config]
  | qsin index =>
    rw [State.afterExec_qsin]
    split
    · exact s.refuse_config
    · exact s.answer_config _
  | _ => simp [State.afterExec]

/-- The delay RAM changes only by a sample that goes to the advanced cursor, in the commands that
run DelayWrite (R42, R140). -/
theorem State.afterExec_ram (s : State) (i : Instr) :
    (mayWriteRam i = false ∧ (s.afterExec i).ram = s.ram) ∨
      (mayWriteRam i = true ∧
        ∃ v, (s.afterExec i).ram = s.ram.write (s.ramIndex (s.cursor + 1)) v) := by
  cases i with
  | dlywr v => exact .inr ⟨rfl, v, rfl⟩
  | echostep x => exact .inr ⟨rfl, _, s.echoStep_ram x⟩
  | echosample x => exact .inr ⟨rfl, _, s.smooth.echoStep_ram x⟩
  | wrreg q v =>
    by_cases hq : q = .cfg
    · subst hq
      exact .inl ⟨rfl, s.refuse_ram⟩
    · exact .inl ⟨rfl, by rw [State.afterExec_wrreg hq, State.answer_ram, State.writeReg_ram]⟩
  | qsin index =>
    rw [State.afterExec_qsin]
    split
    · exact .inl ⟨rfl, s.refuse_ram⟩
    · exact .inl ⟨rfl, s.answer_ram _⟩
  | _ => exact .inl ⟨rfl, by simp [State.afterExec]⟩

/-- Settles O16: each command is its shared operations, and each of these has its own frame. -/
theorem onlyNamedCommandsWrite : Obligations.OnlyNamedCommandsWrite := by
  intro i s t h
  obtain rfl := State.afterExec_of_exec h
  refine ⟨fun r hr => State.readReg_afterExec hr s, fun hram => ?_, s.afterExec_config i⟩
  rcases s.afterExec_ram i with ⟨-, hsame⟩ | ⟨hwrites, -⟩
  · exact hsame
  · exact absurd (hram.symm.trans hwrites) Bool.false_ne_true

end Sys2Proof.Machine
end

section
/-! PROOFS. STATUS: a command raises flags or is the write-1-to-clear rule
(spec/10_state.md R33, R34). -/

namespace Sys2Proof.Machine

/-- The STATUS word `w'` is `w` after flags of R33 were set, any number of them. -/
inductive RaisedFrom (w : Word) : Word → Prop
  | refl : RaisedFrom w w
  | raise {w' : Word} (f : Flag) : RaisedFrom w w' → RaisedFrom w (w' ||| f.word)

theorem RaisedFrom.raiseIf {w : Word} {s : State} (h : RaisedFrom w s.status) (b : Bool)
    (f : Flag) : RaisedFrom w (s.raiseIf b f).status := by
  cases b with
  | false => exact h
  | true => exact h.raise f

theorem RaisedFrom.echoSetTarget {w : Word} {s : State} (h : RaisedFrom w s.status) (p1 : Word) :
    RaisedFrom w (s.echoSetTarget p1).status := by
  rw [State.echoSetTarget_status]
  split
  · exact h
  · exact h.raise _

theorem RaisedFrom.keeps_bit {w w' : Word} (h : RaisedFrom w w') {k : Nat}
    (hk : w.getLsbD k = true) : w'.getLsbD k = true := by
  induction h with
  | refl => exact hk
  | raise f _ ih => rw [BitVec.getLsbD_or, ih, Bool.true_or]

theorem Flag.word_reserved (f : Flag) : f.word &&& ~~~definedBits = 0 := by
  cases f <;> decide

/-- No flag stands in a reserved bit of STATUS (R33). -/
theorem RaisedFrom.keeps_reserved {w w' : Word} (h : RaisedFrom w w')
    (hw : w &&& ~~~definedBits = 0) : w' &&& ~~~definedBits = 0 := by
  induction h with
  | refl => exact hw
  | @raise w' f _ ih =>
    have hsplit : (w' ||| f.word) &&& ~~~definedBits =
        w' &&& ~~~definedBits ||| f.word &&& ~~~definedBits := by
      ext k
      simp [Bool.and_or_distrib_right]
    rw [hsplit, ih, f.word_reserved]
    rfl

/-- Every command but WRREG STATUS sets flags of STATUS and clears none; WRREG STATUS is the
write-1-to-clear rule (R33, R34). -/
theorem State.afterExec_status (s : State) (i : Instr) :
    (∃ v, i = .wrreg .status v ∧ (s.afterExec i).status = clearedStatus s.status v) ∨
      RaisedFrom s.status (s.afterExec i).status := by
  cases i with
  | wrreg q v =>
    cases q with
    | status => exact .inl ⟨v, rfl, rfl⟩
    | cfg => exact .inr (.raise .illcmd .refl)
    | _ => exact .inr .refl
  | fastpow | dlyrd | lfosetper => exact .inr (RaisedFrom.refl.raiseIf _ _)
  | qsin index =>
    rw [State.afterExec_qsin]
    split
    · exact .inr (.raise .illcmd .refl)
    · exact .inr .refl
  | echoinit p1 => exact .inr (.raise .initd ((RaisedFrom.refl.echoSetTarget p1).raiseIf _ _))
  | echostep => exact .inr (RaisedFrom.refl.raiseIf (s := s) _ _)
  | echosample => exact .inr (RaisedFrom.refl.raiseIf (s := s.smooth) _ _)
  | _ => exact .inr .refl

theorem getLsbD_clearableBits (k : Nat) : clearableBits.getLsbD k = decide (k < 5) := by
  have h : clearableBits = BitVec.ofNat 32 (2 ^ 5 - 1) := rfl
  rw [h, BitVec.getLsbD_ofNat, Nat.testBit_two_pow_sub_one]
  by_cases hk : k < 5
  · simp [hk, show k < 32 by omega]
  · simp [hk]

/-- Every bit of the write-1-to-clear rule (R34). -/
theorem getLsbD_clearedStatus (w v : Word) (k : Nat) :
    (clearedStatus w v).getLsbD k =
      if k < 5 then w.getLsbD k && !v.getLsbD k else w.getLsbD k := by
  by_cases hk : k < 32
  · simp only [clearedStatus, BitVec.getLsbD_and, BitVec.getLsbD_not, getLsbD_clearableBits, hk]
    by_cases h5 : k < 5
    · simp [h5]
    · simp [h5]
  · have h5 : ¬ k < 5 := by omega
    rw [if_neg h5, BitVec.getLsbD_of_ge _ _ (by omega), BitVec.getLsbD_of_ge _ _ (by omega)]

/-- Only bits 4:0 of the operand reach the W1C rule. -/
theorem clearedStatus_congr {v v' : Word} (h : v.toNat % 2 ^ 5 = v'.toNat % 2 ^ 5) (w : Word) :
    clearedStatus w v = clearedStatus w v' := by
  have hmask (u : Word) : (u &&& clearableBits).toNat = u.toNat % 2 ^ 5 :=
    (BitVec.toNat_and _ _).trans (Nat.and_two_pow_sub_one_eq_mod _ 5)
  have heq : v &&& clearableBits = v' &&& clearableBits :=
    BitVec.eq_of_toNat_eq (by rw [hmask, hmask, h])
  rw [clearedStatus, clearedStatus, heq]

theorem clearedStatus_keeps_reserved {w : Word} (v : Word) (hw : w &&& ~~~definedBits = 0) :
    clearedStatus w v &&& ~~~definedBits = 0 := by
  have hcomm : clearedStatus w v &&& ~~~definedBits =
      w &&& ~~~definedBits &&& ~~~(v &&& clearableBits) := by
    rw [clearedStatus, BitVec.and_assoc, BitVec.and_comm (~~~_), ← BitVec.and_assoc]
  rw [hcomm, hw]
  exact BitVec.zero_and

/-- INITD stands above the bits that WRREG STATUS can clear (R34). -/
theorem State.afterExec_keeps_initd {s : State} (h : s.flag .initd = true) (i : Instr) :
    (s.afterExec i).flag .initd = true := by
  rcases s.afterExec_status i with ⟨v, -, hstatus⟩ | hraised
  · rw [State.flag, hstatus, getLsbD_clearedStatus, if_neg (by decide)]
    exact h
  · exact hraised.keeps_bit h

/-- Settles O15: flags are only ever added, but for the W1C rule. -/
theorem flagsAreSticky : Obligations.FlagsAreSticky := by
  intro i s t h
  obtain rfl := State.afterExec_of_exec h
  refine ⟨fun hi f hf => ?_, fun hinitd => State.afterExec_keeps_initd hinitd i⟩
  rcases s.afterExec_status i with ⟨v, hwrite, -⟩ | hraised
  · exact absurd hwrite (hi v)
  · exact hraised.keeps_bit hf

/-- Settles O23: the W1C rule, bit by bit. -/
theorem statusWriteClearsOnlyNamedFlags : Obligations.StatusWriteClearsOnlyNamedFlags := by
  refine ⟨fun v s => ⟨_, ⟨exec_wrreg (by decide) v s, rfl, rfl⟩, fun k hk => ?_, fun k hk => ?_⟩,
    fun v v' s h => ?_, fun i s t h hinitd => ?_⟩
  · exact (getLsbD_clearedStatus s.status v k).trans (if_pos hk)
  · exact (getLsbD_clearedStatus s.status v k).trans (if_neg (Nat.not_lt.mpr hk))
  · rw [exec_wrreg (by decide), exec_wrreg (by decide), State.writeReg, State.writeReg,
      clearedStatus_congr h]
  · obtain rfl := State.afterExec_of_exec h
    exact State.afterExec_keeps_initd hinitd i

end Sys2Proof.Machine
end

section
/-! PROOFS. What every step keeps: the invariant of the state (spec/10_state.md R33, R42) and the
parameters (R32). -/

namespace Sys2Proof.Machine

theorem State.inv_iff (s : State) :
    s.inv = true ↔ Memory.wf s.ram = true ∧ Memory.within s.config.capacity s.ram = true ∧
      s.status &&& ~~~definedBits = 0 := by
  simp [State.inv, and_assoc]

theorem State.inv_refuse {s : State} (h : s.inv = true) : s.refuse.inv = true := by
  obtain ⟨hwf, hwithin, hstatus⟩ := s.inv_iff.mp h
  exact s.refuse.inv_iff.mpr
    ⟨hwf, hwithin, (RaisedFrom.raise .illcmd .refl).keeps_reserved hstatus⟩

theorem State.inv_resetAll (s : State) : s.resetAll.inv = true :=
  s.resetAll.inv_iff.mpr ⟨rfl, rfl, BitVec.zero_and⟩

/-- Every command keeps the invariant: a RAM write goes to an index in range, and STATUS gains
flags or loses bits. -/
theorem State.inv_afterExec {s : State} (h : s.inv = true) (i : Instr) :
    (s.afterExec i).inv = true := by
  obtain ⟨hwf, hwithin, hstatus⟩ := s.inv_iff.mp h
  rw [State.inv_iff, s.afterExec_config, ← and_assoc]
  constructor
  · rcases s.afterExec_ram i with ⟨-, hram⟩ | ⟨-, v, hram⟩
    · exact hram ▸ ⟨hwf, hwithin⟩
    · exact hram ▸ State.inv_ram_write _ v hwf hwithin
  · rcases s.afterExec_status i with ⟨v, -, hcleared⟩ | hraised
    · exact hcleared ▸ clearedStatus_keeps_reserved v hstatus
    · exact hraised.keeps_reserved hstatus

/-- What every edge of the port and every command keep, every step keeps. -/
theorem step_keeps {P : State → Prop} (hinputs : ∀ s l, P s → P (s.setInputs l))
    (hreset : ∀ s, P s → P s.resetAll) (hdeliver : ∀ s r, P s → P (s.deliver r))
    (hrefuse : ∀ s, P s → P s.refuse) (hexec : ∀ s i, P s → P (s.afterExec i)) {s t : State}
    (hs : P s) (h : step s = .next t) : P t := by
  rcases step_next h with ⟨-, rfl⟩ | ⟨e, rest, -, hedge⟩
  · exact hs
  have hs' := hinputs s rest hs
  rcases State.edge_next hedge with ⟨-, rfl⟩ |
    ⟨-, ⟨r, -, -, rfl⟩ | ⟨r, -, -, rfl⟩ | ⟨c, -, -, hrun⟩ | ⟨-, -, rfl⟩⟩
  · exact hreset _ hs'
  · exact hdeliver _ r hs'
  · exact hs'
  · rcases runCommand_next hrun with ⟨i, -, hi⟩ | ⟨e, -, rfl⟩
    · exact State.afterExec_of_exec hi ▸ hexec _ i hs'
    · exact hrefuse _ hs'
  · exact hs'

/-- Settles O13: the port's edges touch neither RAM nor STATUS but to reset them, and every command
keeps the invariant. -/
theorem stepKeepsInvariant : Obligations.StepKeepsInvariant := fun _ _ hs h =>
  step_keeps (P := fun s => s.inv = true) (fun _ _ h => h) (fun s _ => s.inv_resetAll)
    (fun _ _ h => h) (fun _ => State.inv_refuse) (fun _ i h => State.inv_afterExec h i) hs h

/-- The fields of CFG (R32): each size parameter fits its field. -/
theorem cfgWord_fields (c : Config) :
    (cfgWord c).toNat % 2 ^ 5 = c.delayLog2 ∧ (cfgWord c).toNat / 2 ^ 5 % 2 ^ 3 = 0 ∧
      (cfgWord c).toNat / 2 ^ 8 % 2 ^ 5 = c.qsinLog2 ∧ (cfgWord c).toNat / 2 ^ 13 = 0 := by
  obtain ⟨-, hdelay, -, hqsin, -⟩ := c.legal
  simp only [cfgWord, BitVec.toNat_ofNat]
  omega

/-- Settles O19: CFG is a function of the parameters, which every step keeps. -/
theorem cfgReportsTheSizeParameters : Obligations.CfgReportsTheSizeParameters := by
  refine ⟨fun s => cfgWord_fields s.config, rfl, fun s t h => ?_⟩
  have hconfig : t.config = s.config :=
    step_keeps (P := fun u => u.config = s.config) (fun _ _ h => h) (fun _ h => h)
      (fun _ _ h => h) (fun _ h => h) (fun u i hu => (u.afterExec_config i).trans hu) rfl h
  rw [State.readReg, State.readReg, hconfig]

end Sys2Proof.Machine
end

section
/-! PROOFS. STATUS and DEPTH influence no result (spec/10_state.md R33, R41): commands run on two
states that differ in one of them leave two states that differ in it alone. -/

namespace Sys2Proof.Machine

/-! ### States that differ in one register -/

/-- One register overwritten, STATUS too with every bit of the value. -/
def State.overwrite (s : State) (r : Reg) (v : Word) : State :=
  match r with
  | .status => s.setStatus v
  | _ => s.writeReg r v

theorem State.readReg_overwrite_other {r q : Reg} (h : q ≠ r) (s : State) (v : Word) :
    (s.overwrite r v).readReg q = s.readReg q := by
  cases r with
  | status =>
    cases q with
    | status => exact absurd rfl h
    | _ => rfl
  | _ => exact s.readReg_writeReg_other v h

theorem State.overwrite_config (s : State) (r : Reg) (v : Word) :
    (s.overwrite r v).config = s.config := by
  cases r with
  | _ => rfl

/-- `s'` is `s` but for the value of one register. -/
def AgreeBut (r : Reg) (s s' : State) : Prop := ∃ v, s' = s.overwrite r v

theorem AgreeBut.config {r : Reg} {s s' : State} (h : AgreeBut r s s') : s'.config = s.config := by
  obtain ⟨v, rfl⟩ := h
  exact s.overwrite_config r v

theorem AgreeBut.answer {r : Reg} {s s' : State} (h : AgreeBut r s s') (res : Word) :
    AgreeBut r (s.answer res) (s'.answer res) := by
  obtain ⟨v, rfl⟩ := h
  cases r with
  | _ => exact ⟨v, rfl⟩

/-! ### The registers that only report -/

/-- The registers that no command computes with. -/
def ReportOnly (r : Reg) : Prop := r = .status ∨ r = .depth

section Operations

variable {r : Reg} (hr : ReportOnly r) {s s' : State} (h : AgreeBut r s s')

include hr h

/-- An operation that carries a STATUS or DEPTH overwritten before it through to its end keeps
agreement. -/
theorem AgreeBut.map {op : State → State}
    (hstatus : ∀ v, ∃ w, op (s.setStatus v) = (op s).setStatus w)
    (hdepth : ∀ v, ∃ w, op (s.setDepth v) = (op s).setDepth w) :
    AgreeBut r (op s) (op s') := by
  obtain ⟨v, rfl⟩ := h
  rcases hr with rfl | rfl
  · exact hstatus v
  · exact hdepth v

theorem AgreeBut.raise (f : Flag) : AgreeBut r (s.raise f) (s'.raise f) :=
  h.map hr (op := fun u => u.raise f) (fun _ => ⟨_, rfl⟩) (fun _ => ⟨_, rfl⟩)

theorem AgreeBut.raiseIf (b : Bool) (f : Flag) : AgreeBut r (s.raiseIf b f) (s'.raiseIf b f) := by
  cases b with
  | false => exact h
  | true => exact h.raise hr f

theorem AgreeBut.refuse : AgreeBut r s.refuse s'.refuse :=
  h.map hr (op := State.refuse) (fun _ => ⟨_, rfl⟩) (fun _ => ⟨_, rfl⟩)

theorem AgreeBut.delayWrite (v : Word) : AgreeBut r (s.delayWrite v) (s'.delayWrite v) :=
  h.map hr (op := fun u => u.delayWrite v) (fun _ => ⟨_, rfl⟩) (fun _ => ⟨_, rfl⟩)

theorem AgreeBut.delayRead (d : Word) : AgreeBut r (s.delayRead d) (s'.delayRead d) := by
  rw [State.delayRead, State.delayRead, h.config]
  exact h.raiseIf hr _ _

theorem AgreeBut.setStep (v : Word) : AgreeBut r (s.setStep v) (s'.setStep v) :=
  h.map hr (op := fun u => u.setStep v) (fun _ => ⟨_, rfl⟩) (fun _ => ⟨_, rfl⟩)

theorem AgreeBut.setPeriod (ms : Word) : AgreeBut r (s.setPeriod ms) (s'.setPeriod ms) :=
  (h.raiseIf hr _ _).setStep hr _

theorem AgreeBut.setFeedback (v : Word) : AgreeBut r (s.setFeedback v) (s'.setFeedback v) :=
  h.map hr (op := fun u => u.setFeedback v) (fun _ => ⟨_, rfl⟩) (fun _ => ⟨_, rfl⟩)

theorem AgreeBut.setTgtdly (v : Word) : AgreeBut r (s.setTgtdly v) (s'.setTgtdly v) :=
  h.map hr (op := fun u => u.setTgtdly v) (fun _ => ⟨_, rfl⟩) (fun _ => ⟨_, rfl⟩)

theorem AgreeBut.echoSetTarget (p1 : Word) :
    AgreeBut r (s.echoSetTarget p1) (s'.echoSetTarget p1) := by
  rw [State.echoSetTarget, State.echoSetTarget, h.config]
  split
  · exact h.setTgtdly hr _
  · exact h.raise hr _

theorem AgreeBut.echoInit (p1 p3 p4 : Word) :
    AgreeBut r (s.echoInit p1 p3 p4) (s'.echoInit p1 p3 p4) :=
  (((h.echoSetTarget hr p1).setPeriod hr _).setFeedback hr p4).raise hr _

theorem AgreeBut.smooth : AgreeBut r s.smooth s'.smooth :=
  h.map hr (op := State.smooth) (fun _ => ⟨_, rfl⟩) (fun _ => ⟨_, rfl⟩)

end Operations

/-! ### Every command -/

/-- No command's result or effect depends on a register that only reports, but for its RDREG: what
it computes is the same on both states, by definition. -/
theorem AgreeBut.afterExec {r : Reg} (hr : ReportOnly r) {i : Instr} (hi : i ≠ .rdreg r)
    {s s' : State} (h : AgreeBut r s s') : AgreeBut r (s.afterExec i) (s'.afterExec i) := by
  have hreport := hr
  have hagree := h
  obtain ⟨v, rfl⟩ := h
  rcases hr with rfl | rfl
  all_goals
    cases i with
    | rdreg q =>
      have hq := State.readReg_overwrite_other (fun hq => hi (congrArg Instr.rdreg hq)) s v
      rw [State.afterExec_rdreg, State.afterExec_rdreg, hq]
      exact hagree.answer _
    | wrreg q x =>
      cases q with
      | _ => exact ⟨_, rfl⟩
    | fastpow => exact (hagree.raiseIf hreport _ _).answer _
    | qsin index =>
      rw [State.afterExec_qsin, State.afterExec_qsin, hagree.config]
      split
      · exact hagree.refuse hreport
      · exact hagree.answer _
    | dlyrd => exact (hagree.delayRead hreport _).answer _
    | lfosetper => exact (hagree.setPeriod hreport _).answer _
    | echoinit => exact (hagree.echoInit hreport _ _ _).answer _
    | echostep => exact ((hagree.delayRead hreport _).delayWrite hreport _).answer _
    | echosample =>
      exact (((hagree.smooth hreport).delayRead hreport _).delayWrite hreport _).answer _
    | _ => exact ⟨_, rfl⟩

/-- Settles O17: the two runs start, so end, in agreement on all but STATUS. -/
theorem flagsChangeNoResult : Obligations.FlagsChangeNoResult := by
  intro i s t t' v h h'
  obtain rfl := State.afterExec_of_exec h
  obtain rfl := State.afterExec_of_exec h'
  by_cases hi : i = .rdreg .status
  · subst hi
    exact ⟨fun hne => absurd rfl hne, rfl⟩
  · obtain ⟨w, hw⟩ := AgreeBut.afterExec (.inl rfl) hi (s := s) ⟨v, rfl⟩
    rw [show s.setStatus v = s.overwrite .status v from rfl, hw]
    exact ⟨fun _ => rfl, rfl⟩

/-- Settles O18: the two runs start, so end, in agreement on all but DEPTH. -/
theorem depthInfluencesNothing : Obligations.DepthInfluencesNothing := by
  intro i s t t' v h h'
  obtain rfl := State.afterExec_of_exec h
  obtain rfl := State.afterExec_of_exec h'
  by_cases hi : i = .rdreg .depth
  · subst hi
    exact ⟨fun hne => absurd rfl hne, rfl⟩
  · obtain ⟨w, hw⟩ := AgreeBut.afterExec (.inr rfl) hi (s := s) ⟨v, rfl⟩
    rw [show s.setDepth v = s.overwrite .depth v from rfl, hw]
    exact ⟨fun _ => rfl, rfl⟩

end Sys2Proof.Machine
end

section
/-! PROOFS. The delay buffer as a shift register: what a read at an integer delay answers after any
sequence of DLYWR (spec/42_delay_buffer.md R140, R142, R144). -/

namespace Sys2Proof.Machine

/-! ### A read at an integer delay -/

theorem units_of_val_eq_natCast {d : Word} {j : Nat} (h : F32.val d = j) :
    F32.units d = (j : ℤ) * 2 ^ 149 := by
  rw [F32.val_eq_units, div_eq_iff (by positivity)] at h
  exact_mod_cast h

theorem delayWhole_of_val_eq_natCast {d : Word} {j : Nat} (hfin : F32.isFinite d = true)
    (h : F32.val d = j) : Operand.delayWhole d = BitVec.ofNat 32 j := by
  have hfloor : Operand.floorInt d = j := by
    rw [Operand.floorInt, units_of_val_eq_natCast h, Int.mul_ediv_cancel _ (by positivity)]
  rw [Operand.delayWhole, if_pos hfin, hfloor, BitVec.ofInt_natCast]

theorem delayFraction_of_val_eq_natCast {d : Word} {j : Nat} (hfin : F32.isFinite d = true)
    (h : F32.val d = j) : Operand.delayFraction d = 0 := by
  rw [Operand.delayFraction, if_pos hfin, units_of_val_eq_natCast h, Int.mul_emod_left]
  decide

theorem delayInContract_of_val_eq_natCast {c : Config} {d : Word} {j : Nat}
    (hfin : F32.isFinite d = true) (h : F32.val d = j) (hj : j < c.capacity) :
    delayInContract c d = true := by
  have hnonneg : 0 ≤ F32.units d := by
    rw [units_of_val_eq_natCast h]
    positivity
  have hlt : F32.ltNat d c.capacity = true :=
    (F32.ltNat_iff_val_lt hfin _).mpr (h ▸ Nat.cast_lt.mpr hj)
  rw [delayInContract, hfin, hlt, decide_eq_true hnonneg]
  rfl

/-- At an integer delay in contract DLYRD answers the stored word, every bit, with no flag (R142,
R144). -/
theorem exec_dlyrd_of_val_eq_natCast {s : State} {d : Word} {j : Nat}
    (hfin : F32.isFinite d = true) (h : F32.val d = j) (hj : j < s.config.capacity) :
    exec (.dlyrd d) s =
      .next (s.answer (s.ramRead (s.ramIndex (s.cursor - BitVec.ofNat 32 j)))) := by
  have hread : s.delayRead d = s := by
    rw [State.delayRead, delayInContract_of_val_eq_natCast hfin h hj]
    rfl
  have hvalue : s.delayValue d = s.ramRead (s.ramIndex (s.cursor - BitVec.ofNat 32 j)) := by
    rw [State.delayValue, delayFraction_of_val_eq_natCast hfin h, if_pos rfl,
      delayWhole_of_val_eq_natCast hfin h, State.tapIndex]
  rw [exec_dlyrd, hread, hvalue]

/-! ### The slots of the last N samples -/

theorem capacity_dvd (c : Config) : c.capacity ∣ 2 ^ 32 :=
  Nat.pow_dvd_pow 2 (c.legal.2.1.trans (by decide))

/-- A slot less than N steps back from a position, and not at it, is another slot. -/
theorem State.ramIndex_sub_ne (s : State) (w : Word) {j : Nat} (hpos : 0 < j)
    (hj : j < s.config.capacity) : s.ramIndex (w - BitVec.ofNat 32 j) ≠ s.ramIndex w := by
  intro heq
  have hback : w - BitVec.ofNat 32 j + BitVec.ofNat 32 j = w := BitVec.sub_add_cancel _ _
  have hsum : (w - BitVec.ofNat 32 j).toNat + j ≡ w.toNat [MOD s.config.capacity] := by
    refine Nat.ModEq.of_dvd (capacity_dvd s.config) ?_
    nth_rw 2 [← hback]
    rw [BitVec.toNat_add, BitVec.toNat_ofNat, Nat.add_mod_mod]
    exact (Nat.mod_modEq _ _).symm
  have hslot : (w - BitVec.ofNat 32 j).toNat ≡ w.toNat [MOD s.config.capacity] := by
    rwa [State.ramIndex_eq_mod, State.ramIndex_eq_mod] at heq
  have hdvd : s.config.capacity ∣ j :=
    (Nat.modEq_zero_iff_dvd).mp (Nat.ModEq.add_left_cancel hslot hsum)
  exact absurd (Nat.le_of_dvd hpos hdvd) (Nat.not_le.mpr hj)

/-! ### A sequence of DLYWR -/

/-- The state after DLYWR of every sample in turn. -/
def State.writeSamples (s : State) (samples : List Word) : State :=
  samples.foldl (fun u v => (u.delayWrite v).answer 0) s

theorem execAll_dlywr (samples : List Word) (s : State) :
    execAll (samples.map .dlywr) s = .next (s.writeSamples samples) := by
  induction samples generalizing s with
  | nil => rfl
  | cons v samples ih => exact ih _

theorem State.writeSamples_concat (s : State) (samples : List Word) (v : Word) :
    s.writeSamples (samples ++ [v]) = ((s.writeSamples samples).delayWrite v).answer 0 :=
  List.foldl_append

theorem State.writeSamples_config (s : State) (samples : List Word) :
    (s.writeSamples samples).config = s.config := by
  induction samples using List.reverseRecOn with
  | nil => rfl
  | append_singleton samples v ih =>
    rw [State.writeSamples_concat, State.answer_config, State.delayWrite_config, ih]

theorem State.wf_writeSamples {s : State} (h : Memory.wf s.ram = true) (samples : List Word) :
    Memory.wf (s.writeSamples samples).ram = true := by
  induction samples using List.reverseRecOn with
  | nil => exact h
  | append_singleton samples v ih =>
    rw [State.writeSamples_concat]
    exact Memory.wf_write _ _ ih

/-- The sample `j` writes ago stands `j` slots behind the cursor, for every `j` below the capacity:
the writes since went to other slots. -/
theorem State.ramRead_writeSamples {s : State} (h : Memory.wf s.ram = true) (samples : List Word)
    {j : Nat} (hj : j < samples.length) (hcap : j < s.config.capacity) :
    samples.reverse[j]? = some ((s.writeSamples samples).ramRead ((s.writeSamples samples).ramIndex
      ((s.writeSamples samples).cursor - BitVec.ofNat 32 j))) := by
  induction samples using List.reverseRecOn generalizing j with
  | nil => exact absurd hj (Nat.not_lt_zero j)
  | append_singleton samples v ih =>
    have hread := State.ramRead_delayWrite v (State.wf_writeSamples h samples)
    have hconfig := s.writeSamples_config samples
    rw [State.writeSamples_concat, List.reverse_concat]
    generalize s.writeSamples samples = u at *
    change _ = some ((u.delayWrite v).ramRead (u.ramIndex (u.cursor + 1 - BitVec.ofNat 32 j)))
    rw [hread]
    cases j with
    | zero => simp
    | succ k =>
      have hother := u.ramIndex_sub_ne (u.cursor + 1) (Nat.succ_pos k) (hconfig ▸ hcap)
      have hslot : u.cursor + 1 - BitVec.ofNat 32 (k + 1) = u.cursor - BitVec.ofNat 32 k := by
        rw [BitVec.ofNat_add]
        bv_omega
      rw [if_neg hother, hslot, List.getElem?_cons_succ]
      exact ih (by simpa using hj) (by omega)

/-- Settles O44: the read at delay `j` finds the slot that the samples since have left alone. -/
theorem delayRoundTripIsBitExact : Obligations.DelayRoundTripIsBitExact := by
  intro samples s d j hinv hj hcap hfin hval
  obtain ⟨hwf, -, -⟩ := s.inv_iff.mp hinv
  have hcap' : j < (s.writeSamples samples).config.capacity :=
    (s.writeSamples_config samples).symm ▸ hcap
  exact ⟨_, _, _, execAll_dlywr samples s,
    ⟨exec_dlyrd_of_val_eq_natCast hfin hval hcap', rfl, rfl⟩,
    State.ramRead_writeSamples hwf samples hj hcap, rfl⟩

end Sys2Proof.Machine
end

section
/-! PROOFS. The LFO phase over any sequence of LFOSTEP (spec/10_state.md R47,
spec/43_lfo.md R165, R170). -/

namespace Sys2Proof.Machine

/-- Every waveform advances the phase, and answers. -/
theorem exec_of_isLfoStep {i : Instr} (h : isLfoStep i = true) (s : State) :
    ∃ res, exec i s = .next (s.advancePhase.answer res) := by
  cases i with
  | lfostepSine | lfostepTri | lfostepSaw => exact ⟨_, rfl⟩
  | _ => exact absurd h Bool.false_ne_true

theorem execAll_lfoSteps {steps : List Instr} (h : ∀ i ∈ steps, isLfoStep i = true) (s : State) :
    ∃ t, execAll steps s = .next t ∧
      t.phase = s.phase + BitVec.ofNat 32 steps.length * s.incr ∧ t.incr = s.incr := by
  induction steps generalizing s with
  | nil => exact ⟨s, rfl, by simp, rfl⟩
  | cons i steps ih =>
    obtain ⟨res, hi⟩ := exec_of_isLfoStep (h i List.mem_cons_self) s
    obtain ⟨t, hrun, hphase, hincr⟩ :=
      ih (fun j hj => h j (List.mem_cons_of_mem i hj)) (s.advancePhase.answer res)
    refine ⟨t, by rw [execAll, hi]; exact hrun, ?_, hincr⟩
    rw [hphase, List.length_cons, BitVec.ofNat_add, BitVec.add_mul, BitVec.one_mul,
      BitVec.add_comm _ s.incr, ← BitVec.add_assoc]
    rfl

/-- `n` increments add up to 0 modulo 2^32 exactly at the multiples of 2^32 / gcd (R170). -/
theorem ofNat_mul_eq_zero_iff (n : Nat) (w : Word) :
    BitVec.ofNat 32 n * w = 0 ↔ 2 ^ 32 / Nat.gcd w.toNat (2 ^ 32) ∣ n := by
  have hzero : BitVec.ofNat 32 n * w = 0 ↔ 2 ^ 32 ∣ w.toNat * n := by
    rw [← BitVec.toNat_inj, BitVec.toNat_mul, BitVec.toNat_ofNat, Nat.mod_mul_mod, Nat.mul_comm]
    exact (Nat.dvd_iff_mod_eq_zero).symm
  rw [hzero, Nat.gcd_comm, Nat.div_dvd_iff_dvd_mul (Nat.gcd_dvd_left _ _)
    (Nat.gcd_pos_of_pos_left _ (by decide))]
  exact (dvd_gcd_mul_iff_dvd_mul (α := ℕ)).symm

/-- Settles O50: the phase is back when the increments add up to 0. -/
theorem lfoPhaseIsPeriodic : Obligations.LfoPhaseIsPeriodic := by
  intro steps s h
  obtain ⟨t, hrun, hphase, hincr⟩ := execAll_lfoSteps h s
  refine ⟨t, hrun, hphase, hincr, fun _ => ?_⟩
  rw [hphase, add_eq_left, ofNat_mul_eq_zero_iff]

end Sys2Proof.Machine
end

section
/-! PROOFS. The decoder and the encoder (spec/30_encoding.md R81 to R86): the command word alone
chooses the command, its operand words fill the places of R85, and the words that are accepted are
the encodings of the well-formed terms. -/

namespace Sys2Proof

/-! ### The rows of the decoder -/

@[simp] theorem Reg.ofNumber_number (r : Reg) : Reg.ofNumber r.number = some r := by
  cases r with
  | _ => rfl

theorem Reg.number_of_ofNumber {f : Nat} {r : Reg} (h : Reg.ofNumber f = some r) :
    r.number = f := by
  unfold Reg.ofNumber at h
  split at h
  case h_10 => exact nomatch h
  all_goals
    obtain rfl := Option.some.inj h
    rfl

theorem Reg.exists_number {f : Nat} (h : f ≤ 8) : ∃ r : Reg, r.number = f := by
  have hall : ∀ k : Fin 9, (Reg.ofNumber k).isSome = true := by decide
  obtain ⟨r, hr⟩ := Option.isSome_iff_exists.mp (hall ⟨f, by omega⟩)
  exact ⟨r, Reg.number_of_ofNumber hr⟩

theorem Reg.number_eq_zero_iff (r : Reg) : r.number = 0 ↔ r = .cfg := by
  cases r with
  | _ => decide

theorem decodeRdreg_number (r : Reg) : decodeRdreg r.number = .ok (.rdreg r) := by
  rw [decodeRdreg, Reg.ofNumber_number]

theorem decodeRdreg_ok {f : Nat} {i : Instr} (h : decodeRdreg f = .ok i) :
    ∃ r : Reg, r.number = f ∧ i = .rdreg r := by
  unfold decodeRdreg at h
  split at h
  next r hr => exact ⟨r, Reg.number_of_ofNumber hr, (Except.ok.inj h).symm⟩
  next => exact nomatch h

theorem decodeWrreg_number {r : Reg} (hr : r ≠ .cfg) (v : Word) :
    decodeWrreg r.number v = .ok (.wrreg r v) := by
  rw [decodeWrreg, if_neg (mt r.number_eq_zero_iff.mp hr), Reg.ofNumber_number]

theorem decodeWrreg_ok {f : Nat} {v : Word} {i : Instr} (h : decodeWrreg f v = .ok i) :
    ∃ r : Reg, r ≠ .cfg ∧ r.number = f ∧ i = .wrreg r v := by
  unfold decodeWrreg at h
  split at h
  next => exact nomatch h
  next hf =>
    split at h
    next r hr =>
      have hnumber := Reg.number_of_ofNumber hr
      refine ⟨r, fun hcfg => hf ?_, hnumber, (Except.ok.inj h).symm⟩
      rw [← hnumber, hcfg]
      rfl
    next => exact nomatch h

theorem decodeLfostep_ok {f : Nat} {i : Instr} (h : decodeLfostep f = .ok i) :
    i.wf = true ∧ i.function = f ∧ i.opcode = 0x30 := by
  unfold decodeLfostep at h
  split at h
  case h_4 => exact nomatch h
  all_goals
    obtain rfl := Except.ok.inj h
    exact ⟨rfl, rfl, rfl⟩

theorem decodePlain_some {op : Nat} {c : Command} {i : Instr} (h : decodePlain op c = some i) :
    i.wf = true ∧ i.function = 0 ∧ i.opcode = op := by
  unfold decodePlain at h
  split at h
  case h_17 => exact nomatch h
  all_goals
    obtain rfl := Option.some.inj h
    exact ⟨rfl, rfl, rfl⟩

theorem decode_of_rdreg {c : Command} (hz : fieldZ c.cmd = 0) (hop : fieldOp c.cmd = 0x01) :
    decode c = decodeRdreg (fieldF c.cmd) := by
  simp [decode, hz, hop]

theorem decode_of_wrreg {c : Command} (hz : fieldZ c.cmd = 0) (hop : fieldOp c.cmd = 0x02) :
    decode c = decodeWrreg (fieldF c.cmd) c.opa := by
  simp [decode, hz, hop]

theorem decode_of_lfostep {c : Command} (hz : fieldZ c.cmd = 0) (hop : fieldOp c.cmd = 0x30) :
    decode c = decodeLfostep (fieldF c.cmd) := by
  simp [decode, hz, hop]

/-- The rows without a function field: their opcodes are none of RDREG, WRREG and LFOSTEP. -/
theorem decode_of_plain {c : Command} {i : Instr} (hz : fieldZ c.cmd = 0) (hf : fieldF c.cmd = 0)
    (h : decodePlain (fieldOp c.cmd) c = some i) : decode c = .ok i := by
  have hop : ∀ op, decodePlain op c = none → fieldOp c.cmd ≠ op := by
    rintro op hnone rfl
    exact absurd (hnone.symm.trans h) (Option.some_ne_none i).symm
  simp [decode, hz, hf, h, hop 0x01 rfl, hop 0x02 rfl, hop 0x30 rfl]

/-- What the decoder accepts: a well-formed term whose fields stand in the command word. -/
theorem fields_of_decode {c : Command} {i : Instr} (h : decode c = .ok i) :
    i.wf = true ∧ fieldZ c.cmd = 0 ∧ fieldF c.cmd = i.function ∧
      fieldOp c.cmd = i.opcode := by
  unfold decode at h
  split at h
  · exact nomatch h
  next hz =>
  have hz := not_not.mp hz
  split at h
  next hop =>
    obtain ⟨r, hnumber, rfl⟩ := decodeRdreg_ok h
    exact ⟨rfl, hz, hnumber.symm, hop⟩
  split at h
  next hop =>
    obtain ⟨r, hr, hnumber, rfl⟩ := decodeWrreg_ok h
    exact ⟨bne_iff_ne.mpr hr, hz, hnumber.symm, hop⟩
  split at h
  next hop =>
    obtain ⟨hwf, hfunction, hopcode⟩ := decodeLfostep_ok h
    exact ⟨hwf, hz, hfunction.symm, hop.trans hopcode.symm⟩
  split at h
  next j hplain =>
    split at h
    next hf =>
      obtain rfl := Except.ok.inj h
      obtain ⟨hwf, hfunction, hopcode⟩ := decodePlain_some hplain
      exact ⟨hwf, hz, hf.trans hfunction.symm, hopcode.symm⟩
    next => exact nomatch h
  next => exact nomatch h

/-! ### Decoding what was encoded, and encoding what was decoded -/

/-- Settles O1: the fields of the encoded word lead to the row of the term, where its operands
stand. -/
theorem decodeOfEncodeIsIdentity : Obligations.DecodeOfEncodeIsIdentity := by
  intro i hwf
  obtain ⟨hz, hf, hop⟩ := fields_encode i
  cases i with
  | rdreg r => rw [decode_of_rdreg hz hop, hf]; exact decodeRdreg_number r
  | wrreg r v =>
    rw [decode_of_wrreg hz hop, hf]
    exact decodeWrreg_number (bne_iff_ne.mp hwf) v
  | lfostepSine | lfostepTri | lfostepSaw => rw [decode_of_lfostep hz hop, hf]; rfl
  | _ => exact decode_of_plain hz hf (by rw [hop]; rfl)

/-- A command word is its three fields (R82). -/
theorem toNat_eq_fields (w : Word) :
    w.toNat = fieldZ w * 2 ^ 16 + fieldF w * 2 ^ 8 + fieldOp w := by
  simp only [fieldZ, fieldF, fieldOp, BitVec.extractLsb'_toNat, Nat.shiftRight_eq_div_pow]
  omega

theorem encode_cmd_toNat (i : Instr) :
    (encode i).cmd.toNat = i.function * 2 ^ 8 + i.opcode := by
  obtain ⟨hz, hf, hop⟩ := fields_encode i
  rw [toNat_eq_fields, hz, hf, hop, Nat.zero_mul, Nat.zero_add]

theorem encode_cmd_of_decode {c : Command} {i : Instr} (h : decode c = .ok i) :
    (encode i).cmd = c.cmd := by
  obtain ⟨-, hz, hf, hop⟩ := fields_of_decode h
  apply BitVec.eq_of_toNat_eq
  rw [encode_cmd_toNat, toNat_eq_fields c.cmd, hz, hf, hop, Nat.zero_mul, Nat.zero_add]

/-- Settles O2: the word and the term have the same fields. -/
theorem encodeOfDecodeKeepsCommandWord : Obligations.EncodeOfDecodeKeepsCommandWord := by
  intro c i h
  obtain ⟨hwf, -⟩ := fields_of_decode h
  exact ⟨hwf, encode_cmd_of_decode h, decodeOfEncodeIsIdentity i hwf⟩

/-! ### The operand words -/

/-- The term with the operand words of `c` in the places R85 gives it. -/
def Instr.withOperandsOf (i : Instr) (c : Command) : Instr :=
  match i with
  | .wrreg r _ => .wrreg r c.opa
  | .u2f _ => .u2f c.opa
  | .f2u _ => .f2u c.opa
  | .pow2m1 _ => .pow2m1 c.opa
  | .fastpow _ _ => .fastpow c.opa c.opb
  | .limit _ => .limit c.opa
  | .qsin _ => .qsin c.opa
  | .dlywr _ => .dlywr c.opa
  | .dlyrd _ => .dlyrd c.opa
  | .lfosetstep _ => .lfosetstep c.opa
  | .lfosetfreq _ => .lfosetfreq c.opa
  | .lfosetper _ => .lfosetper c.opa
  | .echoinit _ _ _ _ => .echoinit c.opa c.opb c.opc c.opd
  | .echostep _ => .echostep c.opa
  | .echosample _ => .echosample c.opa
  | .nop | .rdreg _ | .lfostepSine | .lfostepTri | .lfostepSaw | .smooth => i

theorem decodeRdreg_map_withOperandsOf (f : Nat) (c : Command) :
    (decodeRdreg f).map (·.withOperandsOf c) = decodeRdreg f := by
  unfold decodeRdreg
  split <;> rfl

theorem decodeWrreg_map_withOperandsOf (f : Nat) (v : Word) (c : Command) :
    (decodeWrreg f v).map (·.withOperandsOf c) = decodeWrreg f c.opa := by
  unfold decodeWrreg
  split
  · rfl
  · split <;> rfl

theorem decodeLfostep_map_withOperandsOf (f : Nat) (c : Command) :
    (decodeLfostep f).map (·.withOperandsOf c) = decodeLfostep f := by
  unfold decodeLfostep
  split <;> rfl

theorem decodePlain_map_withOperandsOf (op : Nat) (c c' : Command) :
    (decodePlain op c').map (·.withOperandsOf c) = decodePlain op c := by
  unfold decodePlain
  split <;> rfl

/-- Commands with one command word decode to one command, or are refused for one reason; only the
operand words differ (R86). -/
theorem decode_map_withOperandsOf {c c' : Command} (hcmd : c'.cmd = c.cmd) :
    (decode c').map (·.withOperandsOf c) = decode c := by
  unfold decode
  rw [hcmd, ← decodePlain_map_withOperandsOf _ c c']
  split
  · rfl
  split
  · exact decodeRdreg_map_withOperandsOf _ c
  split
  · exact decodeWrreg_map_withOperandsOf _ _ c
  split
  · exact decodeLfostep_map_withOperandsOf _ c
  cases decodePlain (fieldOp c.cmd) c' with
  | none => rfl
  | some i =>
    dsimp only [Option.map_some]
    split <;> rfl

/-- Every command with the command word of a well-formed term decodes to that term, with the
operand words of the command. -/
theorem decode_of_encode_cmd {c : Command} {i : Instr} (hwf : i.wf = true)
    (hcmd : (encode i).cmd = c.cmd) : decode c = .ok (i.withOperandsOf c) := by
  rw [← decode_map_withOperandsOf hcmd, decodeOfEncodeIsIdentity i hwf]
  rfl

/-- The command word as R84 writes it: F in bits 15:8, OP in bits 7:0. -/
theorem decode_of_word {w a b c d : Word} (i : Instr) (hwf : i.wf = true)
    (hw : w.toNat = i.function * 2 ^ 8 + i.opcode) :
    decode ⟨w, a, b, c, d⟩ = .ok (i.withOperandsOf ⟨w, a, b, c, d⟩) :=
  decode_of_encode_cmd hwf (BitVec.eq_of_toNat_eq ((encode_cmd_toNat i).trans hw.symm))

/-- Settles O5: each word is the encoded word of its command. -/
theorem writtenOutWordsDecode : Obligations.WrittenOutWordsDecode := fun _ _ _ _ =>
  ⟨decode_of_word (.rdreg .curdly) rfl rfl, decode_of_word (.wrreg .cursor 0) rfl rfl,
    decode_of_word (.fastpow 0 0) rfl rfl, decode_of_word (.qsin 0) rfl rfl,
    decode_of_word (.dlyrd 0) rfl rfl, decode_of_word .lfostepTri rfl rfl,
    decode_of_word .smooth rfl rfl, decode_of_word (.echoinit 0 0 0 0) rfl rfl⟩

/-- Commands with one command word decode alike when the operands differ in no place that a term
of their opcode reads. -/
theorem decode_congr {c c' : Command} (hcmd : c'.cmd = c.cmd)
    (h : ∀ i : Instr, i.opcode = fieldOp c.cmd → i.withOperandsOf c = i.withOperandsOf c') :
    decode c = decode c' := by
  have hc := decode_map_withOperandsOf hcmd
  have hc' := decode_map_withOperandsOf (rfl : c'.cmd = c'.cmd)
  cases hdecode : decode c' with
  | error e => rw [← hc, hdecode]; rfl
  | ok i =>
    obtain ⟨-, -, -, hop⟩ := fields_of_decode hdecode
    rw [hdecode] at hc hc'
    exact hc.symm.trans ((congrArg Except.ok (h i (hcmd ▸ hop.symm))).trans hc')

/-- Settles O4: the terms of every other opcode have no place for the operand words named. -/
theorem unlistedOperandsAreIgnored : Obligations.UnlistedOperandsAreIgnored := by
  refine ⟨fun w a b c d b' c' d' hfastpow hechoinit => ?_, fun w a b c d a' b' c' d' hnone => ?_,
    fun w a b c d c' d' hfastpow => ?_, fun p1 p2 p2' p3 p4 s => rfl⟩
  · refine decode_congr rfl fun i (hop : i.opcode = fieldOp w) => ?_
    cases i with
    | fastpow => exact absurd hop.symm hfastpow
    | echoinit => exact absurd hop.symm hechoinit
    | _ => rfl
  · refine decode_congr rfl fun i (hop : i.opcode = fieldOp w) => ?_
    rw [← hop] at hnone
    cases i with
    | nop | rdreg | lfostepSine | lfostepTri | lfostepSaw | smooth => rfl
    | _ => simp [Instr.opcode] at hnone
  · refine decode_congr rfl fun i (hop : i.opcode = fieldOp w) => ?_
    rw [← hop] at hfastpow
    cases i with
    | fastpow => rfl
    | _ => simp [Instr.opcode] at hfastpow

/-! ### The accepted words -/

theorem decode_ok_iff (c : Command) :
    (∃ i, decode c = .ok i) ↔
      ∃ i : Instr, i.wf = true ∧ c.cmd.toNat = i.function * 2 ^ 8 + i.opcode := by
  constructor
  · rintro ⟨i, h⟩
    obtain ⟨hwf, -⟩ := fields_of_decode h
    exact ⟨i, hwf, by rw [← encode_cmd_of_decode h, encode_cmd_toNat]⟩
  · rintro ⟨i, hwf, hw⟩
    exact ⟨_, decode_of_word i hwf hw⟩

/-- One term for each row of R84 without a function field, in the order of the opcodes. -/
def plainTerms : List Instr :=
  [.nop, .u2f 0, .f2u 0, .pow2m1 0, .fastpow 0 0, .limit 0, .qsin 0, .dlywr 0, .dlyrd 0,
    .lfosetstep 0, .lfosetfreq 0, .lfosetper 0, .smooth, .echoinit 0 0 0 0, .echostep 0,
    .echosample 0]

theorem plainTerms_wf : ∀ i ∈ plainTerms, i.wf = true := by decide

theorem plainTerms_words :
    plainTerms.map (fun i => i.function * 2 ^ 8 + i.opcode) =
      [0x00, 0x10, 0x11, 0x12, 0x13, 0x14, 0x18, 0x20, 0x21, 0x31, 0x32, 0x33, 0x40, 0x41, 0x42,
        0x43] := rfl

theorem lfostep_of_function {f : Nat} (h : f ≤ 2) :
    ∃ i : Instr, i.wf = true ∧ i.function = f ∧ i.opcode = 0x30 := by
  interval_cases f
  · exact ⟨.lfostepSine, rfl, rfl, rfl⟩
  · exact ⟨.lfostepTri, rfl, rfl, rfl⟩
  · exact ⟨.lfostepSaw, rfl, rfl, rfl⟩

/-- Settles O3: the listed words are those of the well-formed terms. -/
theorem decoderAcceptsExactlyTheListedWords : Obligations.DecoderAcceptsExactlyTheListedWords := by
  intro c
  rw [decode_ok_iff]
  constructor
  · rintro ⟨i, hwf, hw⟩
    rw [hw]
    cases i with
    | rdreg r =>
      have hlt := r.number_lt
      simp only [Instr.function, Instr.opcode]
      omega
    | wrreg r v =>
      have hlt := r.number_lt
      have hne := mt r.number_eq_zero_iff.mp (bne_iff_ne.mp hwf)
      simp only [Instr.function, Instr.opcode]
      omega
    | _ =>
      simp only [Instr.function, Instr.opcode]
      decide
  · rintro ⟨-, ⟨hop, hf⟩ | ⟨hop, hf1, hf8⟩ | ⟨hop, hf⟩ | hplain⟩
    · obtain ⟨r, hr⟩ := Reg.exists_number hf
      refine ⟨.rdreg r, rfl, ?_⟩
      rw [Instr.function, Instr.opcode, hr]
      omega
    · obtain ⟨r, hr⟩ := Reg.exists_number hf8
      refine ⟨.wrreg r 0, bne_iff_ne.mpr (mt r.number_eq_zero_iff.mpr (by omega)), ?_⟩
      rw [Instr.function, Instr.opcode, hr]
      omega
    · obtain ⟨i, hwf, hfunction, hopcode⟩ := lfostep_of_function hf
      exact ⟨i, hwf, by rw [hfunction, hopcode]; omega⟩
    · rw [← plainTerms_words] at hplain
      obtain ⟨i, hi, hw⟩ := List.mem_map.mp hplain
      exact ⟨i, plainTerms_wf i hi, hw.symm⟩

end Sys2Proof
end

section
/-! PROOFS. The command port: an accepted command runs, and a held response waits for the host
(spec/30_encoding.md R80). -/

namespace Sys2Proof.Machine

theorem step_of_inputs {s : State} {e : PortInput} {rest : List PortInput}
    (h : s.inputs = e :: rest) : step s = (s.setInputs rest).edge e := by
  rw [step, h]

theorem runCommand_of_decode {c : Command} {i : Instr} (h : decode c = .ok i) (s : State) :
    runCommand c s = exec i s := by
  rw [runCommand, h]

theorem State.edge_of_accepted {s : State} {e : PortInput} {c : Command} (hrst : e.rst = false)
    (hcmd : e.cmd = some c) (hrsp : s.rsp = none) : s.edge e = runCommand c s := by
  simp [State.edge, hrst, hcmd, hrsp]

theorem State.edge_of_held {s : State} {e : PortInput} {r : Response} (hrst : e.rst = false)
    (hrsp : s.rsp = some r) :
    s.edge e = .next (if e.rspReady then s.deliver r else s) := by
  cases hready : e.rspReady with
  | _ => simp [State.edge, hrst, hrsp, hready]

theorem State.readReg_setInputs (s : State) (l : List PortInput) (q : Reg) :
    (s.setInputs l).readReg q = s.readReg q := by
  cases q with
  | _ => rfl

theorem State.readReg_deliver (s : State) (r : Response) (q : Reg) :
    (s.deliver r).readReg q = s.readReg q := by
  cases q with
  | _ => rfl

/-- Settles O7: the step uses the sample, the edge accepts its command, and the command runs. -/
theorem stepRunsDecodedCommand : Obligations.StepRunsDecodedCommand := by
  intro s e rest c i hinputs hrst hcmd hrsp hdecode
  obtain ⟨hwf, -⟩ := fields_of_decode hdecode
  refine ⟨hwf, ?_⟩
  calc step s = (s.setInputs rest).edge e := step_of_inputs hinputs
    _ = runCommand c (s.setInputs rest) := State.edge_of_accepted hrst hcmd hrsp
    _ = exec i (s.setInputs rest) := runCommand_of_decode hdecode _

/-- Settles O8: with a response held, the edge delivers it or changes nothing. -/
theorem responseIsHeldUntilTaken : Obligations.ResponseIsHeldUntilTaken := by
  intro s e rest r hinputs hrst hrsp
  have hstep := (step_of_inputs hinputs).trans
    (State.edge_of_held (s := s.setInputs rest) hrst hrsp)
  refine ⟨_, hstep, ?_⟩
  cases e.rspReady with
  | false =>
    refine ⟨rfl, s.readReg_setInputs rest, fun _ => rfl, rfl, rfl, fun _ => ?_, nofun⟩
    exact ⟨hrsp, congrArg Option.isNone hrsp, rfl⟩
  | true =>
    exact ⟨rfl, fun q => (State.readReg_deliver _ r q).trans (s.readReg_setInputs rest q),
      fun _ => rfl, rfl, rfl, nofun, fun _ => ⟨rfl, rfl, rfl⟩⟩

end Sys2Proof.Machine
end

section
/-! PROOFS. The assembler's pseudo-commands (spec/30_encoding.md R95). -/

namespace Sys2Proof.Machine

/-- The names of R95. -/
def pseudoNames : List (List Char) :=
  ["CLRSTAT".toList, "RDSTAT".toList, "SETCUR".toList, "SETTGT".toList, "SETFB".toList,
    "PROCESS".toList]

theorem mem_pseudoNames_of_readPseudo {name : List Char} {ws : List Word} {p : Pseudo}
    (h : readPseudo name ws = some p) : name ∈ pseudoNames := by
  by_contra hname
  simp only [pseudoNames, List.mem_cons, List.not_mem_nil, or_false, not_or] at hname
  obtain ⟨hclrstat, hrdstat, hsetcur, hsettgt, hsetfb, hprocess⟩ := hname
  unfold readPseudo at h
  rw [if_neg hclrstat, if_neg hrdstat] at h
  split at h
  next =>
    rw [if_neg hsetcur, if_neg hsettgt, if_neg hsetfb, if_neg hprocess] at h
    exact nomatch h
  next => exact nomatch h

/-- No pseudo-command has the name of a mnemonic of R84. -/
theorem not_mnemonic_of_mem_pseudoNames :
    ∀ name ∈ pseudoNames, name ≠ "RDREG".toList ∧ name ≠ "WRREG".toList ∧
      lookupName name plainMnemonics = none := by
  decide

theorem assemble_of_pseudo {name : List Char} {ops : List (List Char)} {ws : List Word}
    {p : Pseudo} (hops : readOperands ops = some ws) (hpseudo : readPseudo name ws = some p) :
    assemble name ops = some (encode p.expand) := by
  obtain ⟨hrdreg, hwrreg, hplain⟩ :=
    not_mnemonic_of_mem_pseudoNames name (mem_pseudoNames_of_readPseudo hpseudo)
  unfold assemble
  rw [if_neg hrdreg, if_neg hwrreg, hops]
  simp only [hplain, hpseudo, Option.map_some]

theorem readOperands_singleton {t : List Char} {l : Literal} (h : readLiteral (trim t) = some l) :
    readOperands [t] = some [l.word] := by
  simp [readOperands, h]

theorem encode_wrreg (r : Reg) (v : Word) :
    encode (.wrreg r v) = ⟨BitVec.ofNat 32 (r.number * 2 ^ 8 + 0x02), v, 0, 0, 0⟩ := rfl

theorem encode_echosample (x : Word) :
    encode (.echosample x) = ⟨0x00000043#32, x, 0, 0, 0⟩ := by
  simp [encode, Instr.function, Instr.opcode, Instr.operands]

/-- A pseudo-command for WRREG assembles to the word of that register, with its literal as OPA. -/
theorem assemble_of_wrreg {name t : List Char} {l : Literal} {r : Reg} {p : Pseudo}
    (h : readLiteral (trim t) = some l) (hpseudo : readPseudo name [l.word] = some p)
    (hexpand : p.expand = .wrreg r l.word) :
    assemble name [t] =
      some ⟨BitVec.ofNat 32 (r.number * 2 ^ 8 + 0x02), l.word, 0, 0, 0⟩ := by
  rw [assemble_of_pseudo (readOperands_singleton h) hpseudo, hexpand, encode_wrreg]

/-- Settles O6: each name is a pseudo-command's, and the word of its expansion decodes to it. -/
theorem pseudoCommandsAssembleToOneCommand : Obligations.PseudoCommandsAssembleToOneCommand := by
  refine ⟨assemble_of_pseudo (p := .clrstat) rfl rfl, assemble_of_pseudo (p := .rdstat) rfl rfl,
    fun t l h => ⟨assemble_of_wrreg (r := .curdly) h rfl rfl,
      assemble_of_wrreg (r := .tgtdly) h rfl rfl, assemble_of_wrreg (r := .feedback) h rfl rfl,
      ?_, fun v => ?_⟩⟩
  · rw [assemble_of_pseudo (p := .process l.word) (readOperands_singleton h) rfl]
    exact congrArg some (encode_echosample l.word)
  · exact ⟨decode_of_word (.wrreg .status 0) rfl rfl, decode_of_word (.rdreg .status) rfl rfl,
      decode_of_word (.wrreg .curdly 0) rfl rfl, decode_of_word (.wrreg .tgtdly 0) rfl rfl,
      decode_of_word (.wrreg .feedback 0) rfl rfl, decode_of_word (.echosample 0) rfl rfl⟩

end Sys2Proof.Machine
end

section
/-! PROOFS. RTZ (spec/00_scope.md R11) of a ratio in any form, of a nonnegative rational and of a
datum, and the sign of a product (R12). -/

namespace Sys2Proof.F32

/-! ### Rounding toward zero -/

theorem rtzBits_mul_right (n d : Nat) {c : Nat} (hc : 0 < c) :
    rtzBits (n * c) (d * c) = rtzBits n d := by
  rw [rtzBits, rtzBits, Nat.mul_div_mul_right _ _ hc, Nat.mul_right_comm,
    Nat.mul_div_mul_right _ _ hc]

/-- The truncation of a ratio does not depend on how it is written. -/
theorem rtzBits_congr {n d n' d' : Nat} (hd : 0 < d) (hd' : 0 < d')
    (h : n * d' = n' * d) : rtzBits n d = rtzBits n' d' := by
  rw [← rtzBits_mul_right n d hd', h, Nat.mul_comm d d', rtzBits_mul_right n' d' hd]

/-- RTZ of a magnitude that is a datum's is that datum. -/
theorem rtzBits_magOfBits {b : Nat} (hb : b ≤ maxFiniteBits) {n d : Nat} (hd : 0 < d)
    (h : n = magOfBits b * d) : rtzBits n d = b := by
  obtain ⟨hlow, hhigh⟩ := truncBits_brackets n hd
  have hle : truncBits n d ≤ b :=
    magOfBits_le_iff.mp (Nat.le_of_mul_le_mul_right (hlow.trans_eq h) hd)
  have hge : b < truncBits n d + 1 :=
    magOfBits_strictMono.lt_iff_lt.mp (Nat.lt_of_mul_lt_mul_right (h.symm.trans_lt hhigh))
  rw [rtzBits_eq]
  omega

theorem rtz_eq_of_mag {x : Word} (hsign : sign x = false) (hfin : isFinite x = true) {n d : Nat}
    (hd : 0 < d) (h : n = mag x * d) : rtz n d = x := by
  rw [isFinite_iff_bits, decide_eq_true_eq] at hfin
  have hmax : bits x ≤ maxFiniteBits := Nat.le_of_lt_succ hfin
  rw [rtz, rtzBits_magOfBits hmax hd (mag_eq x ▸ h), ← hsign, pack_sign_bits]

@[simp] theorem val_zero (s : Bool) : val (zero s) = 0 := by
  rw [val_eq_zero_iff, mag_eq_zero_iff, zero, bits_pack s (by decide)]

theorem roundTowardZero_zero : roundTowardZero 0 = zero false := if_pos rfl

/-- RTZ of a nonnegative rational is `rtz` of any ratio that is its value in units. -/
theorem roundTowardZero_eq_rtz {q : ℚ} (hq : 0 ≤ q) {n d : Nat} (hd : 0 < d)
    (h : q * 2 ^ 149 = n / d) : roundTowardZero q = rtz n d := by
  rcases hq.eq_or_lt with rfl | hpos
  · have hn : n = 0 := by
      rw [zero_mul, eq_comm, div_eq_zero_iff] at h
      exact_mod_cast h.resolve_right (by exact_mod_cast hd.ne')
    have hbits : rtzBits n d = 0 :=
      rtzBits_magOfBits (by decide) hd (by simp [hn, magOfBits])
    rw [roundTowardZero_zero, rtz, hbits, zero]
  · have hratio := (abs_mul_units q).trans ((congrArg (· * 2 ^ 149) (abs_of_pos hpos)).trans h)
    rw [div_eq_div_iff (by exact_mod_cast q.den_nz) (by exact_mod_cast hd.ne')] at hratio
    rw [roundTowardZero_of_ne_zero hpos.ne', rtz,
      rtzBits_congr q.den_pos hd (by exact_mod_cast hratio), decide_eq_false hq.not_gt]

/-- RTZ of a nonnegative rational is the greatest datum not above it, and no negative zero (R11). -/
theorem roundTowardZero_of_nonneg {q : ℚ} (hq : 0 ≤ q) :
    isFinite (roundTowardZero q) = true ∧ sign (roundTowardZero q) = false ∧
      val (roundTowardZero q) ≤ q ∧
      ∀ y, isFinite y = true → val y ≤ q → val y ≤ val (roundTowardZero q) := by
  rcases hq.eq_or_lt with rfl | hpos
  · rw [roundTowardZero_zero, val_zero]
    exact ⟨rfl, rfl, le_rfl, fun _ _ hle => hle⟩
  · have hsign : sign (roundTowardZero q) = false := by
      rw [sign_roundTowardZero hpos.ne', decide_eq_false hq.not_gt]
    have hval : val (roundTowardZero q) = |val (roundTowardZero q)| := by
      rw [val_of_sign, hsign]
      exact (abs_abs _).symm
    obtain ⟨hle, hgreatest⟩ := roundTowardZero_greatest hpos.ne'
    rw [abs_of_pos hpos] at hle hgreatest
    refine ⟨isFinite_roundTowardZero hpos.ne', hsign, hval.trans_le hle, fun y hy hyq => ?_⟩
    rw [hval]
    rcases le_total 0 (val y) with hy0 | hy0
    · rw [← abs_of_nonneg hy0] at hyq ⊢
      exact hgreatest y hy hyq
    · exact hy0.trans (abs_nonneg _)

/-! ### The sign of a product -/

theorem neg_pack (s : Bool) {b : Nat} (h : b < 2 ^ 31) : neg (pack s b) = pack (!s) b := by
  rw [neg_eq_pack, sign_pack s h, bits_pack s h]

@[simp] theorem xorSign_neg_left (x y : Word) : xorSign (neg x) y = !xorSign x y := by
  rw [xorSign, xorSign, sign_neg]
  cases sign x <;> cases sign y <;> rfl

/-- A square is the same for an operand and its negation. -/
theorem mul_neg_self (x : Word) : mul (neg x) (neg x) = mul x x := by
  simp [mul, xorSign]

/-- A product that is no NaN changes its sign, and nothing else, with an operand's. -/
theorem mul_neg_left {x y : Word} (h : isNaN (mul x y) = false) :
    mul (neg x) y = neg (mul x y) := by
  unfold mul at h ⊢
  simp only [isNaN_neg, isInf_neg, mag_neg, xorSign_neg_left]
  split_ifs at h ⊢
  · exact absurd h (by decide)
  · exact absurd h (by decide)
  · exact (neg_pack _ (by decide)).symm
  · exact (neg_pack _ (by decide)).symm
  · exact (neg_pack _ (lt_of_le_of_lt (rneBits_le _ _) (by decide))).symm

end Sys2Proof.F32
end

section
/-! PROOFS. Commands that answer and change nothing else (spec/30_encoding.md R81). -/

namespace Sys2Proof.Machine

theorem State.keepsRegisters_answer (s : State) (res : Word) :
    KeepsRegistersBut [] s (s.answer res) :=
  ⟨fun _ _ => s.readReg_answer res, rfl, rfl, rfl⟩

/-- A command whose only effect is its answer. -/
theorem completes_of_exec_answer {i : Instr} {s : State} {res : Word}
    (h : exec i s = .next (s.answer res)) :
    Completes i s (s.answer res) res ∧ KeepsRegistersBut [] s (s.answer res) ∧
      SameRam s (s.answer res) :=
  ⟨⟨h, rfl, rfl⟩, s.keepsRegisters_answer res, fun _ => rfl⟩

end Sys2Proof.Machine
end

section
/-! PROOFS. The polynomials POW2M1 and LIMIT (spec/40_fastmath.md R112, R114, R115). -/

namespace Sys2Proof.Machine

/-- Settles O33: the steps of `pow2m1`, with each constant's word written out. -/
theorem pow2m1IsTheHornerPolynomial : Obligations.Pow2m1IsTheHornerPolynomial :=
  fun x s => ⟨_, completes_of_exec_answer (exec_pow2m1 x s)⟩

/-- The factor of R114's last step, as a function of `x2`. -/
def limitFactor (x2 : Word) : Word :=
  F32.add (F32.sub one (F32.mul c19 x2)) (F32.mul (F32.mul c162 x2) x2)

theorem limit_eq (x : Word) : limit x = F32.mul x (limitFactor (F32.mul x x)) := rfl

/-- Settles O36: the steps of `limit`, with each constant's word written out. -/
theorem limitIsTheLimiterPolynomial : Obligations.LimitIsTheLimiterPolynomial :=
  fun x s => ⟨_, completes_of_exec_answer (exec_limit x s)⟩

/-- Settles O37: every step but the last sees `x` through its square, which has no sign. -/
theorem limiterIsOdd : Obligations.LimiterIsOdd := by
  intro x h
  rw [limit_eq] at h ⊢
  rw [limit_eq, F32.mul_neg_self, F32.mul_neg_left h]

end Sys2Proof.Machine
end

section
/-! PROOFS. The conversions U2F and F2U (spec/40_fastmath.md R110, R111). -/

namespace Sys2Proof.F32

theorem val_pos_iff (x : Word) : 0 < val x ↔ 0 < units x := by
  rw [val_eq_units, div_pos_iff_of_pos_right (by positivity), Int.cast_pos]

theorem val_nonpos_iff (x : Word) : val x ≤ 0 ↔ units x ≤ 0 := by
  rw [← not_lt, val_pos_iff, not_lt]

theorem one_le_val_iff (x : Word) : 1 ≤ val x ↔ 2 ^ 149 ≤ units x := by
  rw [val_eq_units, one_le_div (by positivity)]
  exact_mod_cast Iff.rfl

theorem val_lt_one_iff (x : Word) : val x < 1 ↔ units x < 2 ^ 149 := by
  rw [← not_le, one_le_val_iff, not_le]

theorem units_of_pos {x : Word} (h : 0 < units x) : sign x = false ∧ units x = mag x := by
  unfold units at h ⊢
  cases hsign : sign x with
  | false => exact ⟨rfl, rfl⟩
  | true =>
    rw [hsign, if_pos rfl] at h
    omega

end Sys2Proof.F32

namespace Sys2Proof.Operand

/-! ### U2F -/

theorem u2f_eq_roundTowardZero (v : Word) :
    u2f v = F32.roundTowardZero ((v.toNat : ℚ) / 2 ^ 32) := by
  refine (F32.roundTowardZero_eq_rtz (by positivity) (by positivity) ?_).symm
  push_cast [u32]
  ring

theorem fraction_lt_one (v : Word) : (v.toNat : ℚ) / 2 ^ 32 < 1 := by
  rw [div_lt_one (by positivity)]
  exact_mod_cast v.isLt

/-! ### F2U -/

theorem f2u_of_isNaN {x : Word} (h : F32.isNaN x = true) : f2u x = 0 := if_pos h

section NotNaN

variable {x : Word} (hx : F32.isNaN x = false)
include hx

theorem f2u_of_units_nonpos (h : F32.units x ≤ 0) : f2u x = 0 := by
  rw [f2u, hx, if_neg Bool.false_ne_true, if_pos h]

theorem f2u_of_le_units (h : 2 ^ 149 ≤ F32.units x) : f2u x = 0xFFFFFFFF#32 := by
  have hpos : ¬ F32.units x ≤ 0 := not_le.mpr (lt_of_lt_of_le (by positivity) h)
  rw [f2u, hx, if_neg Bool.false_ne_true, if_neg hpos, if_pos h]

/-- Between 0 and 1 the floor is below 2^32, so the word holds it. -/
theorem toNat_f2u (hpos : 0 < F32.units x) (hlt : F32.units x < 2 ^ 149) :
    (f2u x).toNat = F32.mag x * 2 ^ 32 / 2 ^ 149 := by
  have hmag : F32.mag x < 2 ^ 149 := by
    rw [(F32.units_of_pos hpos).2] at hlt
    exact_mod_cast hlt
  rw [f2u, hx, if_neg Bool.false_ne_true, if_neg hpos.not_ge, if_neg hlt.not_ge,
    BitVec.toNat_ofNat, Nat.mod_eq_of_lt]
  rw [Nat.div_lt_iff_lt_mul (by positivity), Nat.mul_comm (2 ^ 32)]
  exact Nat.mul_lt_mul_of_pos_right hmag (by positivity)

theorem toNat_f2u_eq_floor (hpos : 0 < F32.units x) (hlt : F32.units x < 2 ^ 149) :
    ((f2u x).toNat : ℤ) = ⌊F32.val x * 2 ^ 32⌋ := by
  have hval : F32.val x * 2 ^ 32 = ((F32.mag x * 2 ^ 32 : ℕ) : ℚ) / ((2 ^ 149 : ℕ) : ℚ) := by
    rw [F32.val_eq_units, (F32.units_of_pos hpos).2]
    push_cast
    ring
  rw [hval, toNat_f2u hx hpos hlt]
  exact (Rat.floor_intCast_div_natCast ((F32.mag x * 2 ^ 32 : ℕ) : ℤ) (2 ^ 149)).symm

end NotNaN

theorem f2u_of_isInf {x : Word} (h : F32.isInf x = true) :
    f2u x = if F32.sign x then 0 else 0xFFFFFFFF#32 := by
  have hnan := F32.not_isNaN_of_isInf h
  have hunits := F32.units_of_isInf h
  cases hsign : F32.sign x with
  | false =>
    rw [hsign, if_neg Bool.false_ne_true] at hunits
    exact f2u_of_le_units hnan (hunits ▸ pow_le_pow_right₀ one_le_two (by decide))
  | true =>
    rw [hsign, if_pos rfl] at hunits
    exact f2u_of_units_nonpos hnan (hunits ▸ neg_nonpos.mpr (by positivity))

/-! ### The words that are fractions exactly -/

/-- `x` is the datum of value v * 2^-32, that is v * 2^117 units, and is not -0. -/
def IsFraction (x v : Word) : Prop :=
  F32.isFinite x = true ∧ F32.sign x = false ∧ F32.mag x = v.toNat * 2 ^ 117

theorem IsFraction.u2f {x v : Word} (h : IsFraction x v) : u2f v = x := by
  obtain ⟨hfin, hsign, hmag⟩ := h
  refine F32.rtz_eq_of_mag hsign hfin (by positivity) ?_
  rw [hmag, u32]
  ring

theorem IsFraction.f2u {x v : Word} (h : IsFraction x v) : f2u x = v := by
  obtain ⟨hfin, hsign, hmag⟩ := h
  have hunits : F32.units x = (v.toNat * 2 ^ 117 : ℕ) := by
    rw [F32.units, hsign, if_neg Bool.false_ne_true, hmag]
  rcases Nat.eq_zero_or_pos v.toNat with hv | hv
  · rw [f2u_of_units_nonpos (F32.not_isNaN_of_isFinite hfin) (by simp [hunits, hv])]
    exact (BitVec.eq_of_toNat_eq hv).symm
  · have hlt : v.toNat * 2 ^ 117 < 2 ^ 149 := by
      have := v.isLt
      omega
    apply BitVec.eq_of_toNat_eq
    rw [toNat_f2u (F32.not_isNaN_of_isFinite hfin) (hunits ▸ by positivity)
      (hunits ▸ by exact_mod_cast hlt), hmag]
    omega

/-- A word of at most 24 bits, shifted to 24 bits, is the significand of a datum. -/
theorem exists_magOfBits_eq_mul {n : Nat} (h : n < 2 ^ 24) :
    ∃ b < F32.infBits, F32.magOfBits b = n * 2 ^ 117 := by
  rcases Nat.eq_zero_or_pos n with rfl | hpos
  · exact ⟨0, by decide, by simp [F32.magOfBits]⟩
  · have hlog : Nat.log2 n ≤ 23 := Nat.le_of_lt_succ ((Nat.log2_lt hpos.ne').mpr h)
    obtain ⟨shift, hshift⟩ := Nat.exists_eq_add_of_le hlog
    have hlow : 2 ^ 23 ≤ n * 2 ^ shift := by
      rw [hshift, pow_add]
      exact Nat.mul_le_mul_right _ (Nat.log2_self_le hpos.ne')
    have hhigh : n * 2 ^ shift < 2 ^ 24 := by
      rw [show 24 = Nat.log2 n + 1 + shift by omega, pow_add]
      exact Nat.mul_lt_mul_of_pos_right Nat.lt_log2_self (Nat.two_pow_pos shift)
    refine ⟨(117 - shift) * 2 ^ 23 + n * 2 ^ shift, ?_, ?_⟩
    · rw [F32.infBits]
      omega
    · rw [F32.magOfBits_place hhigh.le (.inr hlow), Nat.mul_assoc, ← pow_add,
        Nat.add_sub_cancel' (by omega : shift ≤ 117)]

theorem exists_isFraction_datum {v : Word} (h : v.toNat < 2 ^ 24) : ∃ x, IsFraction x v := by
  obtain ⟨b, hb, hmag⟩ := exists_magOfBits_eq_mul h
  have hb' : b < 2 ^ 31 := hb.trans (by decide)
  refine ⟨F32.pack false b, ?_, F32.sign_pack _ hb', (F32.mag_pack _ hb').trans hmag⟩
  rw [F32.isFinite_iff_bits, F32.bits_pack _ hb', decide_eq_true hb]

/-- From 2^-9 = 2^140 units on, data are 2^117 units apart or more. -/
theorem dvd_mag_of_le {x : Word} (h : 2 ^ 140 ≤ F32.mag x) : 2 ^ 117 ∣ F32.mag x := by
  have hbits : 118 * 2 ^ 23 ≤ F32.bits x := by
    rw [← F32.magOfBits_le_iff, ← F32.mag_eq]
    exact (by decide +kernel : F32.magOfBits (118 * 2 ^ 23) = 2 ^ 140).trans_le h
  have hexpo : 118 ≤ F32.expo x := by
    rw [F32.expo_eq_bits]
    omega
  rw [F32.mag, if_neg (by omega)]
  exact Dvd.dvd.mul_left (pow_dvd_pow 2 (by omega)) _

theorem exists_isFraction_word {x : Word} (hfin : F32.isFinite x = true)
    (hlow : 1 / 2 ^ 9 ≤ F32.val x) (hhigh : F32.val x < 1) : ∃ v, IsFraction x v := by
  have hpos : 0 < F32.units x := (F32.val_pos_iff x).mp (lt_of_lt_of_le (by positivity) hlow)
  obtain ⟨hsign, hunits⟩ := F32.units_of_pos hpos
  rw [F32.val_eq_units, hunits] at hlow hhigh
  have hlow' : 2 ^ 140 ≤ F32.mag x := by
    rw [div_le_div_iff₀ (by positivity) (by positivity)] at hlow
    have : 1 * 2 ^ 149 ≤ F32.mag x * 2 ^ 9 := by exact_mod_cast hlow
    omega
  have hhigh' : F32.mag x < 2 ^ 149 := by
    rw [div_lt_one (by positivity)] at hhigh
    exact_mod_cast hhigh
  obtain ⟨n, hn⟩ := dvd_mag_of_le hlow'
  have hlt : n < 2 ^ 32 := by omega
  refine ⟨BitVec.ofNat 32 n, hfin, hsign, ?_⟩
  rw [BitVec.toNat_ofNat, Nat.mod_eq_of_lt hlt, hn, Nat.mul_comm]

end Sys2Proof.Operand

namespace Sys2Proof.Machine

/-- Settles O30: RTZ of a rational that is below 1. -/
theorem u2fRoundsTowardZeroIntoUnitInterval : Obligations.U2fRoundsTowardZeroIntoUnitInterval := by
  intro v s
  obtain ⟨hcompletes, hkeeps, hram⟩ := completes_of_exec_answer (exec_u2f v s)
  have hround := Operand.u2f_eq_roundTowardZero v
  obtain ⟨hfin, hsign, hle, hgreatest⟩ :=
    F32.roundTowardZero_of_nonneg (by positivity : (0 : ℚ) ≤ v.toNat / 2 ^ 32)
  rw [← hround] at hfin hsign hle hgreatest
  exact ⟨_, _, hcompletes, hkeeps, hram, hround, hfin, hsign, hle,
    hle.trans_lt (Operand.fraction_lt_one v), hgreatest⟩

/-- Settles O31, by the branches of `f2u`. -/
theorem f2uFloorsAndSaturates : Obligations.F2uFloorsAndSaturates := by
  intro x s
  obtain ⟨hcompletes, hkeeps, hram⟩ := completes_of_exec_answer (exec_f2u x s)
  refine ⟨_, _, hcompletes, hkeeps, hram, Operand.f2u_of_isNaN, Operand.f2u_of_isInf,
    fun hfin => ?_⟩
  have hnan := F32.not_isNaN_of_isFinite hfin
  rw [F32.val_nonpos_iff, F32.one_le_val_iff, F32.val_pos_iff, F32.val_lt_one_iff]
  exact ⟨Operand.f2u_of_units_nonpos hnan, Operand.f2u_of_le_units hnan,
    Operand.toNat_f2u_eq_floor hnan⟩

/-- Settles O32: both ways on a word and a datum of the same value, which each clause's hypothesis
gives. -/
theorem fractionConversionsAreInverse : Obligations.FractionConversionsAreInverse := by
  refine ⟨fun v hv => ?_, fun x hfin hlow hhigh => ?_⟩
  · obtain ⟨x, hx⟩ := Operand.exists_isFraction_datum hv
    rw [hx.u2f, hx.f2u]
  · obtain ⟨v, hv⟩ := Operand.exists_isFraction_word hfin hlow hhigh
    rw [hv.f2u, hv.u2f]

end Sys2Proof.Machine
end

section
/-! PROOFS. FASTPOW (spec/40_fastmath.md R113). -/

namespace Sys2Proof.Operand

/-- R113's `t`, in units of 2^-149. -/
def powUnits (k a b : Word) : Int := F32.units b * (s32 a - s32 k) + s32 k * 2 ^ 149

theorem powTransform_eq (k a b : Word) : powTransform k a b = (powUnits k a b).tdiv (2 ^ 149) := rfl

theorem exact_transform_eq (k a b : Word) :
    F32.val b * (a.toInt - k.toInt : ℤ) + k.toInt = (powUnits k a b : ℚ) / 2 ^ 149 := by
  rw [F32.val_eq_units, powUnits, s32, s32]
  push_cast
  ring

theorem tdiv_eq_floor {n : Int} (h : 0 ≤ n) : n.tdiv (2 ^ 149) = ⌊(n : ℚ) / 2 ^ 149⌋ := by
  rw [Int.tdiv_eq_ediv_of_nonneg h]
  exact_mod_cast (Rat.floor_intCast_div_natCast n (2 ^ 149)).symm

theorem tdiv_eq_ceil {n : Int} (h : n ≤ 0) : n.tdiv (2 ^ 149) = ⌈(n : ℚ) / 2 ^ 149⌉ := by
  have hneg := tdiv_eq_floor (neg_nonneg.mpr h)
  rw [Int.neg_tdiv, Int.cast_neg, neg_div, Int.floor_neg] at hneg
  exact neg_injective hneg

/-- The word of a saturated result reads as it. -/
theorem toInt_ofS32_saturateS32 (r : Int) : (ofS32 (saturateS32 r)).toInt = saturateS32 r := by
  have hlow : -2 ^ 31 ≤ saturateS32 r := le_min (le_max_right _ _) (by decide)
  have hhigh : saturateS32 r < 2 ^ 31 := lt_of_le_of_lt (min_le_right _ _) (by decide)
  exact BitVec.toInt_ofInt_eq_self (by decide) hlow hhigh

/-- A transform that is a word's reading is answered as that word. -/
theorem fastpow_of_powUnits {k a b r : Word} (hfin : F32.isFinite b = true)
    (h : powUnits k a b = s32 r * 2 ^ 149) : fastpow k a b = r := by
  have htransform : powTransform k a b = r.toInt := by
    rw [powTransform_eq, h, Int.mul_tdiv_cancel _ (by positivity), s32]
  have hlow : -2 ^ 31 ≤ r.toInt := BitVec.le_toInt r
  have hhigh : r.toInt < 2 ^ 31 := BitVec.toInt_lt
  rw [fastpow, if_pos hfin, htransform, saturateS32, max_eq_left hlow,
    min_eq_left (Int.le_sub_one_of_lt hhigh), ofS32, BitVec.ofInt_toInt]

theorem powDomain_iff (a b : Word) :
    powDomain a b = true ↔
      F32.isFinite a = true ∧ 0 < F32.val a ∧ F32.isFinite b = true := by
  rw [F32.val_pos_iff, powDomain, Bool.and_eq_true, Bool.and_eq_true, decide_eq_true_eq, and_assoc]

end Sys2Proof.Operand

namespace Sys2Proof.Machine

theorem completes_fastpow (a b : Word) (s : State) :
    Completes (.fastpow a b) s ((s.raiseIf (!Operand.powDomain a b) .fpdom).answer
      (Operand.fastpow s.config.fastpowK a b)) (Operand.fastpow s.config.fastpowK a b) :=
  ⟨exec_fastpow a b s, rfl, by simp⟩

/-- A flag and an answer leave every register but STATUS. -/
theorem State.keepsRegisters_raiseIf_answer (s : State) (b : Bool) (f : Flag) (res : Word) :
    KeepsRegistersBut [.status] s ((s.raiseIf b f).answer res) := by
  refine ⟨fun r hr => ?_, by simp, by simp, by simp⟩
  rw [State.readReg_answer, s.readReg_raiseIf (List.ne_of_not_mem_cons hr)]

/-- Settles O34: `tdiv` is the floor or the ceiling of the exact quotient, by its sign. -/
theorem fastpowTruncatesTheExactTransform : Obligations.FastpowTruncatesTheExactTransform := by
  intro a b s
  refine ⟨_, _, completes_fastpow a b s, s.keepsRegisters_raiseIf_answer _ _ _,
    fun i => ?_, ?_, fun hnonfinite => ?_, fun hfin => ?_⟩
  · simp [State.ramRead]
  · simp only [← Operand.powDomain_iff, State.answer_status, State.raiseIf_status]
    cases Operand.powDomain a b
    · rfl
    · rfl
  · rw [Operand.fastpow, hnonfinite, if_neg Bool.false_ne_true]
  · rw [Operand.exact_transform_eq]
    refine ⟨Operand.powTransform s.config.fastpowK a b, fun hnonneg => ?_, fun hneg => ?_, ?_⟩
    · rw [le_div_iff₀ (by positivity), zero_mul] at hnonneg
      exact Operand.tdiv_eq_floor (by exact_mod_cast hnonneg)
    · rw [div_lt_iff₀ (by positivity), zero_mul, Int.cast_lt_zero] at hneg
      exact Operand.tdiv_eq_ceil hneg.le
    · rw [Operand.fastpow, if_pos hfin, Operand.toInt_ofS32_saturateS32]
      rfl

/-- Settles O35: the exponent's units make the transform the base's, or the constant's. -/
theorem fastpowAtExponentsOneAndZero : Obligations.FastpowAtExponentsOneAndZero := by
  intro a s
  have hone : Operand.fastpow s.config.fastpowK a 0x3F800000#32 = a := by
    refine Operand.fastpow_of_powUnits (by decide) ?_
    rw [Operand.powUnits, (by decide +kernel : F32.units 0x3F800000#32 = 2 ^ 149)]
    ring
  have hzero : Operand.fastpow s.config.fastpowK a 0 = s.config.fastpowK := by
    refine Operand.fastpow_of_powUnits (by decide) ?_
    rw [Operand.powUnits, (by decide +kernel : F32.units 0 = 0), zero_mul, zero_add]
  have hbase := completes_fastpow a 0x3F800000#32 s
  have hconst := completes_fastpow a 0 s
  rw [hone] at hbase
  rw [hzero] at hconst
  exact ⟨_, _, hbase, hconst⟩

end Sys2Proof.Machine
end

section
/-! PROOFS. The sine ROM: the words QSIN answers and the default table (spec/41_sine_table.md R130,
R131). -/

namespace Sys2Proof.Machine

/-! ### QSIN -/

/-- A legal configuration's ROM has a word at every index up to STEPS, the one RomRead answers
(R64). -/
theorem sineRom_getElem?_eq_romRead {c : Config} {i : Nat} (h : i ≤ c.steps) :
    c.sineRom[i]? = some (romRead c i) := by
  obtain ⟨-, -, -, -, hlength⟩ := c.legal
  have hlt : i < c.sineRom.length := hlength ▸ Nat.lt_succ_of_le h
  rw [romRead, List.getElem?_eq_getElem hlt, List.getD_eq_getElem _ _ hlt]

/-- Settles O38: QSIN answers RomRead, which at these indices is a word of the ROM. -/
theorem qsinAnswersTheRomWord : Obligations.QsinAnswersTheRomWord := by
  intro index s hle
  obtain ⟨hcompletes, hkeeps, hram⟩ := completes_of_exec_answer (exec_qsin_within hle)
  exact ⟨_, _, hcompletes, sineRom_getElem?_eq_romRead hle, hkeeps, hram⟩

/-! ### The default table

Facts about the 513 listed words, which the kernel reads off the table. -/

theorem length_defaultSineRom : defaultSineRom.length = 513 := by decide +kernel

theorem defaultSineRom_endpoints :
    defaultSineRom[0]? = some 0x00000000#32 ∧ defaultSineRom[512]? = some 0x3F800000#32 := by
  decide +kernel

/-- The word at the middle is that of √2/2 (R130). -/
theorem defaultSineRom_midpoint : defaultSineRom[256]? = some 0x3F3504F3#32 := by decide +kernel

theorem defaultSineRom_isChain_le : defaultSineRom.IsChain fun a b => a.toNat ≤ b.toNat := by
  decide +kernel

theorem defaultSineRom_checkSum : defaultSineRom.foldl (· + ·) 0 = 0xF628F63B#32 := by
  decide +kernel

/-- Settles O39, from the facts of R130 about the listed words. -/
theorem defaultRomRisesFromZeroToOne : Obligations.DefaultRomRisesFromZeroToOne := by
  obtain ⟨hfirst, hlast⟩ := defaultSineRom_endpoints
  exact ⟨length_defaultSineRom, hfirst, defaultSineRom_midpoint, hlast,
    defaultSineRom_isChain_le, defaultSineRom_checkSum⟩

end Sys2Proof.Machine
end

section
/-! PROOFS. A remainder of a datum's magnitude by a power of two is a datum's magnitude again, so
that rounding it is exact (spec/00_scope.md R11). -/

namespace Sys2Proof.F32

/-- A multiple of the spacing at its own magnitude is truncated to itself. -/
theorem magOfBits_truncBits_of_dvd {n : Nat} (h : 2 ^ spacing n ∣ n) :
    magOfBits (truncBits n 1) = n := by
  rw [magOfBits_truncBits, place, Nat.div_one, Nat.one_mul, Nat.div_mul_cancel h]

theorem exists_mag_eq_of_dvd {n : Nat} (hlt : n < 2 ^ 277) (h : 2 ^ spacing n ∣ n) :
    ∃ x, isFinite x = true ∧ sign x = false ∧ mag x = n := by
  have hmag := magOfBits_truncBits_of_dvd h
  have hbits : truncBits n 1 < infBits := by
    rw [← magOfBits_strictMono.lt_iff_lt, hmag, magOfBits_infBits]
    exact hlt
  have hbits' : truncBits n 1 < 2 ^ 31 := hbits.trans (by decide)
  refine ⟨pack false (truncBits n 1), ?_, sign_pack _ hbits', (mag_pack _ hbits').trans hmag⟩
  rw [isFinite_iff_bits, bits_pack _ hbits', decide_eq_true hbits]

theorem spacing_dvd_mag (x : Word) : 2 ^ spacing (mag x) ∣ mag x := by
  rw [mag_eq]
  exact Dvd.intro_left _ (magOfBits_spacing (bits x)).1.symm

theorem spacing_mono {m n : Nat} (h : m ≤ n) : spacing m ≤ spacing n := by
  rw [spacing, spacing, Nat.log2_eq_log_two, Nat.log2_eq_log_two]
  exact Nat.sub_le_sub_right (Nat.log_mono_right h) 23

/-- The remainder is a multiple of the magnitude's spacing when that is below `2^k`, and 0
otherwise. -/
theorem exists_mag_eq_mod {x : Word} (hfin : isFinite x = true) (k : Nat) :
    ∃ y, isFinite y = true ∧ sign y = false ∧ mag y = mag x % 2 ^ k := by
  have hle : mag x % 2 ^ k ≤ mag x := Nat.mod_le _ _
  refine exists_mag_eq_of_dvd (hle.trans_lt (mag_lt_of_isFinite hfin)) ?_
  rcases le_total (spacing (mag x)) k with hk | hk
  · have hdvd : 2 ^ spacing (mag x) ∣ mag x % 2 ^ k :=
      (Nat.dvd_mod_iff (pow_dvd_pow 2 hk)).mpr (spacing_dvd_mag x)
    exact (pow_dvd_pow 2 (spacing_mono hle)).trans hdvd
  · rw [Nat.mod_eq_zero_of_dvd ((pow_dvd_pow 2 hk).trans (spacing_dvd_mag x))]
    exact dvd_zero _

theorem val_nonneg_iff (x : Word) : 0 ≤ val x ↔ 0 ≤ units x := by
  rw [← not_lt, ← not_lt, val_eq_units, div_lt_iff₀ (by positivity), zero_mul, Int.cast_lt_zero]

/-- Of a nonnegative value the units are the magnitude, at -0 too. -/
theorem units_of_nonneg {x : Word} (h : 0 ≤ units x) : units x = mag x := by
  rw [← natAbs_units, Int.natAbs_of_nonneg h]

end Sys2Proof.F32
end

section
/-! PROOFS. DLYWR and DLYRD (spec/42_delay_buffer.md R140 to R144): the split of a delay, its
contract, and the slots that the commands touch. -/

namespace Sys2Proof.Operand

/-! ### The integer part and the fraction of a delay -/

theorem floorInt_eq_floor (d : Word) : floorInt d = ⌊F32.val d⌋ := by
  rw [floorInt, F32.val_eq_units]
  exact_mod_cast (Rat.floor_intCast_div_natCast (F32.units d) (2 ^ 149)).symm

theorem delayWhole_of_isFinite {d : Word} (hfin : F32.isFinite d = true) :
    delayWhole d = BitVec.ofInt 32 ⌊F32.val d⌋ := by
  rw [delayWhole, if_pos hfin, floorInt_eq_floor]

theorem delayWhole_of_not_isFinite {d : Word} (h : F32.isFinite d = false) : delayWhole d = 0 := by
  simp [delayWhole, h]

theorem delayFraction_of_not_isFinite {d : Word} (h : F32.isFinite d = false) :
    delayFraction d = 0 := by
  simp [delayFraction, h]

/-- The fraction of a delay in units of 2^-149. -/
def fractionUnits (d : Word) : Nat := (F32.units d % 2 ^ 149).toNat

theorem delayFraction_of_isFinite {d : Word} (hfin : F32.isFinite d = true) :
    delayFraction d = F32.rne false (fractionUnits d) 1 := if_pos hfin

/-- R142's `val(d) - floor(val(d))`, before it is rounded. -/
theorem val_sub_floor (d : Word) :
    F32.val d - ⌊F32.val d⌋ = (fractionUnits d : ℚ) / 2 ^ 149 := by
  have hunits : (fractionUnits d : ℤ) = F32.units d - 2 ^ 149 * floorInt d := by
    rw [fractionUnits, Int.toNat_of_nonneg (Int.emod_nonneg _ (by positivity)), Int.emod_def,
      floorInt]
  have hcast : (fractionUnits d : ℚ) = F32.units d - 2 ^ 149 * floorInt d := by
    exact_mod_cast congrArg (Int.cast : ℤ → ℚ) hunits
  rw [← floorInt_eq_floor, F32.val_eq_units, hcast]
  field_simp

/-- The fraction is the rounding of the exact one, +0 at an integer delay. -/
theorem delayFraction_eq_roundNearest {d : Word} (hfin : F32.isFinite d = true) :
    delayFraction d = F32.roundNearest (F32.val d - ⌊F32.val d⌋) := by
  rw [delayFraction_of_isFinite hfin, val_sub_floor]
  rcases Nat.eq_zero_or_pos (fractionUnits d) with hzero | hpos
  · rw [hzero, Nat.cast_zero, zero_div]
    decide
  · have hq : (0 : ℚ) < (fractionUnits d : ℚ) / 2 ^ 149 := by positivity
    rw [F32.roundNearest_eq_rne hq.ne' one_pos (n := fractionUnits d), decide_eq_false hq.not_gt]
    rw [abs_of_pos hq, div_mul_cancel₀ _ (by positivity), Nat.cast_one, div_one]

theorem fractionUnits_of_nonneg {d : Word} (h : 0 ≤ F32.units d) :
    fractionUnits d = F32.mag d % 2 ^ 149 := by
  rw [fractionUnits, F32.units_of_nonneg h]
  exact_mod_cast Int.toNat_natCast (F32.mag d % 2 ^ 149)

/-- Settles O42: the fraction of a nonnegative delay is a remainder of its magnitude, hence a datum,
which RNE leaves. -/
theorem delayFractionIsExact : Obligations.DelayFractionIsExact := by
  intro d hfin hnonneg
  obtain ⟨y, hyfin, hysign, hymag⟩ := F32.exists_mag_eq_mod hfin 149
  rw [← fractionUnits_of_nonneg ((F32.val_nonneg_iff d).mp hnonneg)] at hymag
  have hfraction : delayFraction d = y := by
    rw [delayFraction_of_isFinite hfin, ← hymag, ← hysign, F32.rne_mag hyfin]
  rw [hfraction, val_sub_floor, F32.val_of_sign, hysign, if_neg Bool.false_ne_true, F32.abs_val,
    hymag]

end Sys2Proof.Operand

namespace Sys2Proof.Machine

/-! ### The contract of a delay -/

theorem delayInContract_of_not_isFinite {d : Word} (h : F32.isFinite d = false) (c : Config) :
    delayInContract c d = false := by
  simp [delayInContract, h]

theorem delayInContract_iff {d : Word} (hfin : F32.isFinite d = true) (c : Config) :
    delayInContract c d = true ↔ 0 ≤ F32.val d ∧ F32.val d < c.capacity := by
  rw [delayInContract, hfin, Bool.true_and, Bool.and_eq_true, decide_eq_true_eq,
    F32.val_nonneg_iff, F32.ltNat_iff_val_lt hfin]

/-! ### DLYWR -/

/-- The advanced cursor's slot, as the remainder by the capacity (R140). -/
theorem State.ramIndex_cursor_succ (s : State) :
    s.ramIndex (s.cursor + 1) = (s.cursor.toNat + 1) % s.config.capacity := by
  rw [State.ramIndex_eq_mod, BitVec.toNat_add]
  exact Nat.mod_mod_of_dvd _ (capacity_dvd s.config)

/-- Settles O40, by what DelayWrite leaves of each register and each RAM word. -/
theorem dlywrStoresAtTheAdvancedCursor : Obligations.DlywrStoresAtTheAdvancedCursor := by
  intro v s hinv
  obtain ⟨hwf, -, -⟩ := s.inv_iff.mp hinv
  have hregisters : KeepsRegistersBut [.cursor] s ((s.delayWrite v).answer 0) := by
    refine ⟨fun r hr => ?_, rfl, rfl, rfl⟩
    rw [State.readReg_answer, s.readReg_delayWrite (List.ne_of_not_mem_cons hr)]
  exact ⟨_, ⟨exec_dlywr v s, rfl, rfl⟩, rfl, State.ramRead_delayWrite v hwf,
    s.ramIndex_cursor_succ, hregisters⟩

/-! ### DLYRD -/

theorem completes_dlyrd (d : Word) (s : State) :
    Completes (.dlyrd d) s ((s.delayRead d).answer (s.delayValue d)) (s.delayValue d) :=
  ⟨exec_dlyrd d s, rfl, s.delayRead_refusalMark d⟩

theorem State.delayValue_of_not_isFinite {d : Word} (h : F32.isFinite d = false) (s : State) :
    s.delayValue d = s.ramRead (s.ramIndex s.cursor) := by
  rw [State.delayValue, Operand.delayFraction_of_not_isFinite h, if_pos rfl,
    Operand.delayWhole_of_not_isFinite h, State.tapIndex, sub_zero]

/-- Settles O41: the split of the delay is by floor and RNE, and the contract is by value. -/
theorem dlyrdInterpolatesBetweenTaps : Obligations.DlyrdInterpolatesBetweenTaps := by
  intro d s
  refine ⟨_, _, completes_dlyrd d s, s.keepsRegisters_raiseIf_answer _ _ _,
    fun i => congrArg (Memory.read · i) (s.delayRead_ram d), fun hnonfinite => ?_, fun hfin => ?_⟩
  · refine ⟨?_, s.delayValue_of_not_isFinite hnonfinite⟩
    rw [State.answer_status, State.delayRead_status, delayInContract_of_not_isFinite hnonfinite]
    rfl
  · refine ⟨?_, _, _, _, _, rfl, rfl, rfl, rfl, ?_⟩
    · simp only [← delayInContract_iff hfin, State.answer_status, State.delayRead_status]
      cases delayInContract s.config d
      · rfl
      · rfl
    · rw [State.delayValue, Operand.delayFraction_eq_roundNearest hfin,
        Operand.delayWhole_of_isFinite hfin]
      rfl

/-! ### A read at the capacity -/

/-- N steps back is the same slot. -/
theorem State.ramIndex_sub_capacity (s : State) (w : Word) :
    s.ramIndex (w - BitVec.ofNat 32 s.config.capacity) = s.ramIndex w := by
  have hback : w - BitVec.ofNat 32 s.config.capacity + BitVec.ofNat 32 s.config.capacity = w :=
    BitVec.sub_add_cancel _ _
  nth_rw 2 [← hback]
  rw [State.ramIndex_eq_mod, State.ramIndex_eq_mod, BitVec.toNat_add,
    Nat.mod_mod_of_dvd _ (capacity_dvd s.config), BitVec.toNat_ofNat, Nat.add_mod,
    Nat.mod_mod_of_dvd _ (capacity_dvd s.config), Nat.mod_self, Nat.add_zero, Nat.mod_mod]

/-- At an integer delay of any size the value is the word at the slot that many steps back. -/
theorem State.delayValue_of_val_eq_natCast (s : State) {d : Word} {j : Nat}
    (hfin : F32.isFinite d = true) (h : F32.val d = j) :
    s.delayValue d = s.ramRead (s.ramIndex (s.cursor - BitVec.ofNat 32 j)) := by
  rw [State.delayValue, delayFraction_of_val_eq_natCast hfin h, if_pos rfl,
    delayWhole_of_val_eq_natCast hfin h, State.tapIndex]

theorem State.flag_alias_delayRead {s : State} {d : Word}
    (h : delayInContract s.config d = false) : (s.delayRead d).flag .alias_ = true := by
  rw [State.flag, State.delayRead_status, h, Bool.not_false, if_pos rfl, BitVec.getLsbD_or]
  exact Bool.or_true _

/-- Settles O43: N steps back is where the newest sample stands, and N is out of contract. -/
theorem readAtCapacityAliasesTheNewest : Obligations.ReadAtCapacityAliasesTheNewest := by
  intro d s hfin hval
  have hout : delayInContract s.config d = false := by
    rw [← Bool.not_eq_true, delayInContract_iff hfin, hval]
    rintro ⟨-, hlt⟩
    exact lt_irrefl _ hlt
  have hzero : F32.val 0 = (0 : Nat) := by
    rw [Nat.cast_zero]
    exact F32.val_zero false
  have hsame : s.delayValue 0 = s.delayValue d := by
    rw [s.delayValue_of_val_eq_natCast hfin hval, s.ramIndex_sub_capacity,
      s.delayValue_of_val_eq_natCast rfl hzero]
    exact congrArg (fun w => s.ramRead (s.ramIndex w)) (sub_zero s.cursor)
  exact ⟨_, _, _, completes_dlyrd d s, hsame ▸ completes_dlyrd 0 s, State.flag_alias_delayRead hout⟩

end Sys2Proof.Machine
end

section
/-! PROOFS. Bounds on what RNE gives (spec/00_scope.md R11): it never passes a datum that the exact
result does not pass by half a spacing, so the operations of R12 keep a bound that is a datum. -/

namespace Sys2Proof.F32

/-! ### The order of values and of bits -/

theorem abs_val_le_abs_val_iff (x y : Word) : |val x| ≤ |val y| ↔ bits x ≤ bits y := by
  rw [abs_val, abs_val, mag_eq, mag_eq, div_le_div_iff_of_pos_right (by positivity), Nat.cast_le,
    magOfBits_le_iff]

/-- The value formula puts infinities and NaN above every finite magnitude. -/
theorem isFinite_of_abs_val_le {x y : Word} (h : |val x| ≤ |val y|) (hy : isFinite y = true) :
    isFinite x = true := by
  rw [isFinite_iff_bits, decide_eq_true_eq] at hy ⊢
  exact ((abs_val_le_abs_val_iff x y).mp h).trans_lt hy

theorem val_eq_abs_of_toNat_lt {x : Word} (h : x.toNat < 2 ^ 31) : val x = |val x| := by
  have hval := val_of_sign x
  rwa [sign_eq, decide_eq_false (Nat.not_le.mpr h), if_neg Bool.false_ne_true] at hval

/-- Words without a sign order as integers. -/
theorem val_le_val_of_toNat_le {x y : Word} (h : x.toNat ≤ y.toNat) (hy : y.toNat < 2 ^ 31) :
    val x ≤ val y := by
  have hx := h.trans_lt hy
  rw [val_eq_abs_of_toNat_lt hx, val_eq_abs_of_toNat_lt hy, abs_val_le_abs_val_iff, bits, bits,
    Nat.mod_eq_of_lt hx, Nat.mod_eq_of_lt hy]
  exact h

theorem magOfBits_one : magOfBits 0x3F800000 = 2 ^ 149 := by decide +kernel

/-- The greatest datum below 1. -/
theorem magOfBits_pred_one : magOfBits 0x3F7FFFFF = 2 ^ 149 - 2 ^ 125 := by decide +kernel

/-- The least datum above 1. -/
theorem magOfBits_succ_one : magOfBits 0x3F800001 = 2 ^ 149 + 2 ^ 126 := by decide +kernel

@[simp] theorem val_one : val 0x3F800000#32 = 1 := by
  rw [val_eq_abs_of_toNat_lt (by decide), abs_val, mag_eq,
    (by decide : bits 0x3F800000#32 = 0x3F800000), magOfBits_one, Nat.cast_pow, Nat.cast_ofNat,
    div_self (by positivity)]

theorem isFinite_of_abs_val_le_one {x : Word} (h : |val x| ≤ 1) : isFinite x = true :=
  isFinite_of_abs_val_le (y := 0x3F800000#32) (by rwa [val_one, abs_one]) rfl

/-- A datum below 1 is at most 1 - 2^-24. -/
theorem abs_val_le_of_lt_one {x : Word} (h : |val x| < 1) : |val x| ≤ 1 - 1 / 2 ^ 24 := by
  have hmag : mag x ≤ 2 ^ 149 - 2 ^ 125 := by
    rw [abs_val, div_lt_one (by positivity)] at h
    have hlt : mag x < 2 ^ 149 := by exact_mod_cast h
    rw [mag_eq, ← magOfBits_one, magOfBits_strictMono.lt_iff_lt] at hlt
    rw [mag_eq, ← magOfBits_pred_one, magOfBits_le_iff]
    exact Nat.le_of_lt_succ hlt
  rw [abs_val, div_le_iff₀ (by positivity)]
  calc (mag x : ℚ) ≤ ((2 ^ 149 - 2 ^ 125 : ℕ) : ℚ) := by exact_mod_cast hmag
    _ = (1 - 1 / 2 ^ 24) * 2 ^ 149 := by norm_num

/-! ### How far a rounding goes -/

/-- Below the midpoint above a datum, that datum is not passed. -/
theorem NearestEven.le_of_lt_midpoint {r : ℚ} {b c : Nat} (h : NearestEven r b)
    (hr : 2 * r < magOfBits c + magOfBits (c + 1)) : b ≤ c := by
  by_contra hgt
  have hb : (magOfBits (c + 1) : ℚ) ≤ magOfBits b := by
    exact_mod_cast magOfBits_le_iff.mpr (Nat.lt_of_not_le hgt)
  have hstep : (magOfBits c : ℚ) < magOfBits (c + 1) := by
    exact_mod_cast magOfBits_strictMono c.lt_succ_self
  have habove := (neg_le_abs (r - magOfBits b)).trans (h c).1
  rcases le_abs.mp habove with hle | hle
  · linarith
  · linarith

theorem exists_bracket {r : ℚ} (h0 : 0 ≤ r) :
    ∀ {top : Nat}, r ≤ magOfBits (top + 1) →
      ∃ c ≤ top, magOfBits c ≤ r ∧ r ≤ magOfBits (c + 1)
  | 0, h => ⟨0, le_rfl, by simpa [magOfBits] using h0, h⟩
  | top + 1, h => by
    rcases le_total r (magOfBits (top + 1)) with hle | hge
    · obtain ⟨c, hc, hbracket⟩ := exists_bracket h0 hle
      exact ⟨c, hc.trans top.le_succ, hbracket⟩
    · exact ⟨top + 1, le_rfl, hge, h⟩

/-- A rounding is off by at most half the spacing of the data it lies between. -/
theorem NearestEven.two_mul_abs_sub_le {r : ℚ} {b top : Nat} (h : NearestEven r b) (h0 : 0 ≤ r)
    (hr : r ≤ magOfBits (top + 1)) : 2 * |r - magOfBits b| ≤ 2 ^ (top / 2 ^ 23 - 1) := by
  obtain ⟨c, hc, hlow, hhigh⟩ := exists_bracket h0 hr
  have hlower := (h c).1
  have hupper := (h (c + 1)).1
  rw [abs_of_nonneg (sub_nonneg.mpr hlow)] at hlower
  rw [abs_of_nonpos (sub_nonpos.mpr hhigh)] at hupper
  have hstep : (magOfBits (c + 1) : ℚ) = magOfBits c + 2 ^ (c / 2 ^ 23 - 1) := by
    exact_mod_cast magOfBits_succ c
  have hspacing : (2 : ℚ) ^ (c / 2 ^ 23 - 1) ≤ 2 ^ (top / 2 ^ 23 - 1) :=
    pow_le_pow_right₀ one_le_two (Nat.sub_le_sub_right (Nat.div_le_div_right hc) 1)
  linarith

@[simp] theorem roundNearest_zero : roundNearest 0 = zero false := if_pos rfl

theorem bits_roundNearest_le_of_lt_midpoint {q : ℚ} {c : Nat}
    (h : 2 * (|q| * 2 ^ 149) < magOfBits c + magOfBits (c + 1)) : bits (roundNearest q) ≤ c := by
  rcases eq_or_ne q 0 with rfl | hq
  · rw [roundNearest_zero]
    exact Nat.zero_le c
  · obtain ⟨b, hnear, hbits⟩ := bits_roundNearest hq
    exact hbits.trans_le ((Nat.min_le_left _ _).trans (hnear.le_of_lt_midpoint h))

/-- A datum that bounds the exact result bounds the rounded one. -/
theorem abs_val_roundNearest_le {q : ℚ} {z : Word} (h : |q| ≤ |val z|) :
    |val (roundNearest q)| ≤ |val z| := by
  have hstep : (magOfBits (bits z) : ℚ) < magOfBits (bits z + 1) := by
    exact_mod_cast magOfBits_strictMono (bits z).lt_succ_self
  rw [abs_val, mag_eq, le_div_iff₀ (by positivity)] at h
  exact (abs_val_le_abs_val_iff _ _).mpr (bits_roundNearest_le_of_lt_midpoint (by linarith))

/-- Below 1 + 2^-24, the midpoint above 1, a rounding does not pass 1. -/
theorem abs_val_roundNearest_le_one {q : ℚ} (h : |q| < 1 + 1 / 2 ^ 24) :
    |val (roundNearest q)| ≤ 1 := by
  have hbits : bits (roundNearest q) ≤ 0x3F800000 := by
    refine bits_roundNearest_le_of_lt_midpoint ?_
    rw [magOfBits_one, magOfBits_succ_one]
    push_cast
    linarith
  rw [← abs_one, ← val_one]
  exact (abs_val_le_abs_val_iff _ _).mpr hbits

/-- Up to 1 the data are at most 2^-24 apart. -/
theorem abs_val_roundNearest_le_add {q : ℚ} (h : |q| ≤ 1) :
    |val (roundNearest q)| ≤ |q| + 1 / 2 ^ 25 := by
  rcases eq_or_ne q 0 with rfl | hq
  · rw [roundNearest_zero, val_zero, abs_zero]
    positivity
  · obtain ⟨b, hnear, hbits⟩ := bits_roundNearest hq
    have hr : |q| * 2 ^ 149 ≤ magOfBits (0x3F7FFFFF + 1) := by
      rw [magOfBits_one, Nat.cast_pow, Nat.cast_ofNat]
      exact mul_le_of_le_one_left (by positivity) h
    have herror : 2 * |(|q| * 2 ^ 149 - magOfBits b)| ≤ 2 ^ 125 :=
      hnear.two_mul_abs_sub_le (by positivity) hr
    have hround : (magOfBits (bits (roundNearest q)) : ℚ) ≤ magOfBits b := by
      exact_mod_cast magOfBits_le_iff.mpr (hbits.trans_le (Nat.min_le_left _ _))
    have hexceeds := neg_le_abs (|q| * 2 ^ 149 - magOfBits b)
    rw [abs_val, mag_eq, div_le_iff₀ (by positivity)]
    linarith

/-! ### The value of a sum, a difference and a product, zero or not -/

section Finite

variable {x y : Word} (hx : isFinite x = true) (hy : isFinite y = true)
include hx hy

theorem val_add_eq : val (add x y) = val (roundNearest (val x + val y)) := by
  by_cases h : val x + val y = 0
  · rw [add_of_val_add_eq_zero hx hy h, h, roundNearest_zero, val_zero, val_zero]
  · rw [add_eq_roundNearest hx hy h]

theorem val_sub_eq : val (sub x y) = val (roundNearest (val x - val y)) := by
  rw [sub, val_add_eq hx (by rwa [isFinite_neg]), val_neg, ← sub_eq_add_neg]

theorem val_mul_eq : val (mul x y) = val (roundNearest (val x * val y)) := by
  by_cases h : val x * val y = 0
  · obtain ⟨-, -, hmul, -⟩ := zeroResults_of_isFinite hx hy
    rw [hmul h, h, roundNearest_zero, val_zero, val_zero]
  · rw [mul_eq_roundNearest hx hy h]

end Finite

end Sys2Proof.F32
end

section
/-! PROOFS. The increment of SetStep (spec/43_lfo.md R160) as the nearest integer of a datum. -/

namespace Sys2Proof.F32

/-- The quotient rounded to the nearest integer, ties to even, as a rational inequality. -/
theorem abs_div_sub_roundHalfEven (n : Nat) {d : Nat} (hd : 0 < d) :
    |(n : ℚ) / d - roundHalfEven n d| ≤ 1 / 2 ∧
      (|(n : ℚ) / d - roundHalfEven n d| = 1 / 2 → roundHalfEven n d % 2 = 0) := by
  have hd' : (0 : ℚ) < d := by exact_mod_cast hd
  have hn : (n : ℚ) / d = (n / d : ℕ) + (n % d : ℕ) / d := by
    rw [div_eq_iff hd'.ne', add_mul, div_mul_cancel₀ _ hd'.ne']
    exact_mod_cast (Nat.div_add_mod' n d).symm
  have hlt : ((n % d : ℕ) : ℚ) / d < 1 := by
    rw [div_lt_one hd']
    exact_mod_cast Nat.mod_lt n hd
  have hnonneg : (0 : ℚ) ≤ ((n % d : ℕ) : ℚ) / d := by positivity
  have hup : (1 / 2 : ℚ) ≤ ((n % d : ℕ) : ℚ) / d ↔ d ≤ 2 * (n % d) := by
    rw [div_le_div_iff₀ two_pos hd', one_mul, mul_comm]
    exact_mod_cast Iff.rfl
  have hdown : ((n % d : ℕ) : ℚ) / d ≤ 1 / 2 ↔ 2 * (n % d) ≤ d := by
    rw [div_le_div_iff₀ hd' two_pos, one_mul, mul_comm]
    exact_mod_cast Iff.rfl
  rw [hn, roundHalfEven]
  split
  next hround =>
    have hle := hup.mpr (by omega)
    rw [Nat.cast_add, Nat.cast_one, add_sub_add_left_eq_sub, abs_of_nonpos (by linarith)]
    refine ⟨by linarith, fun htie => ?_⟩
    have := hdown.mp (by linarith)
    omega
  next hround =>
    have hle := hdown.mpr (by omega)
    rw [add_sub_cancel_left, abs_of_nonneg hnonneg]
    refine ⟨hle, fun htie => ?_⟩
    have := hup.mp htie.ge
    omega

end Sys2Proof.F32

namespace Sys2Proof.Operand

theorem abs_val_sub_nearestInt (x : Word) :
    |F32.val x - nearestInt x| ≤ 1 / 2 ∧
      (|F32.val x - nearestInt x| = 1 / 2 → nearestInt x % 2 = 0) := by
  obtain ⟨hnear, heven⟩ := F32.abs_div_sub_roundHalfEven (F32.mag x) (Nat.two_pow_pos 149)
  rw [Nat.cast_pow, Nat.cast_ofNat, ← F32.abs_val] at hnear heven
  rw [F32.val_of_sign x, nearestInt]
  cases F32.sign x with
  | false =>
    simp only [Bool.false_eq_true, if_false, Int.cast_natCast]
    exact ⟨hnear, fun htie => by exact_mod_cast heven htie⟩
  | true =>
    simp only [if_true, Int.cast_neg, Int.cast_natCast, neg_sub_neg]
    rw [abs_sub_comm]
    refine ⟨hnear, fun htie => ?_⟩
    have := heven htie
    omega

theorem stepWord_of_isNaN {r : Word} (h : F32.isNaN r = true) : stepWord r = 0 := if_pos h

theorem stepWord_of_isInf {r : Word} (h : F32.isInf r = true) :
    stepWord r = if F32.sign r then 0 else 0xFFFFFFFF#32 := by
  simp [stepWord, F32.not_isNaN_of_isInf h, h]

theorem toNat_stepWord_of_isFinite {r : Word} (h : F32.isFinite r = true) :
    ((stepWord r).toNat : ℤ) = min (max (nearestInt r) 0) (2 ^ 32 - 1) := by
  rw [stepWord, F32.not_isNaN_of_isFinite h, F32.not_isInf_of_isFinite h]
  simp only [Bool.false_eq_true, if_false, BitVec.toNat_ofNat]
  omega

/-- An integer that bounds the datum bounds the increment. -/
theorem toNat_stepWord_le {r : Word} {n : Nat} (hfin : F32.isFinite r = true)
    (h : F32.val r ≤ n) : (stepWord r).toNat ≤ n := by
  obtain ⟨hnear, -⟩ := abs_val_sub_nearestInt r
  have hlt : (nearestInt r : ℚ) < (n + 1 : ℕ) := by
    have hbelow := neg_le_of_abs_le hnear
    push_cast
    linarith
  have hint : nearestInt r < (n + 1 : ℕ) := by exact_mod_cast hlt
  have hstep := toNat_stepWord_of_isFinite hfin
  omega

end Sys2Proof.Operand
end

section
/-! PROOFS. The increment setters LFOSETSTEP, LFOSETFREQ and LFOSETPER (spec/43_lfo.md R160 to
R164). -/

namespace Sys2Proof.Machine

/-- `SetStep` and an answer change INCR and the response. -/
theorem State.keepsRegisters_setStep_answer (s : State) (r res : Word) :
    KeepsRegistersBut [.incr] s ((s.setStep r).answer res) := by
  refine ⟨fun q hq => ?_, rfl, rfl, rfl⟩
  rw [State.readReg_answer, s.readReg_setStep (List.ne_of_not_mem_cons hq)]

/-- `SetPeriod` and an answer change INCR, STATUS and the response. -/
theorem State.keepsRegisters_setPeriod_answer (s : State) (ms res : Word) :
    KeepsRegistersBut [.incr, .status] s ((s.setPeriod ms).answer res) := by
  refine ⟨fun q hq => ?_, by simp, by simp, by simp⟩
  simp only [List.mem_cons, List.not_mem_nil, or_false, not_or] at hq
  obtain ⟨hincr, hstatus⟩ := hq
  rw [State.readReg_answer, s.readReg_setPeriod hincr hstatus]

theorem completes_lfosetper (ms : Word) (s : State) :
    Completes (.lfosetper ms) s ((s.setPeriod ms).answer 0) 0 :=
  ⟨exec_lfosetper ms s, rfl, s.setPeriod_refusalMark ms⟩

/-- Settles O51, by the classes of the operand of `stepWord`. -/
theorem lfosetstepRoundsAndSaturates : Obligations.LfosetstepRoundsAndSaturates := by
  intro r s
  refine ⟨_, ⟨exec_lfosetstep r s, rfl, rfl⟩, s.keepsRegisters_setStep_answer r 0, fun _ => rfl,
    Operand.stepWord_of_isNaN, Operand.stepWord_of_isInf, fun hfin => ?_⟩
  obtain ⟨hnear, htie⟩ := Operand.abs_val_sub_nearestInt r
  exact ⟨_, hnear, htie, Operand.toNat_stepWord_of_isFinite hfin⟩

/-- Settles O52: both commands are `SetStep` of the scaled frequency. -/
theorem lfosetfreqScalesTheFrequency : Obligations.LfosetfreqScalesTheFrequency := by
  intro hz s
  exact ⟨_, ⟨exec_lfosetfreq hz s, rfl, rfl⟩, exec_lfosetstep (F32.mul hz fscale) s,
    s.keepsRegisters_setStep_answer _ 0, fun _ => rfl⟩

/-- Settles O53, by what SetPeriod leaves of INCR and STATUS. -/
theorem lfosetperClampsThePeriod : Obligations.LfosetperClampsThePeriod := by
  intro ms s
  exact ⟨_, _, completes_lfosetper ms s, exec_lfosetstep _ s, s.setPeriod_incr ms,
    s.setPeriod_status ms, s.keepsRegisters_setPeriod_answer ms 0,
    fun i => congrArg (Memory.read · i) (s.setPeriod_ram ms)⟩

/-! ### The greatest increment of a period -/

/-- The period that SetPeriod divides by is not below 0.1 ms. -/
theorem lt_clamped_period (ms : Word) :
    F32.lt (if periodClamped ms then c01 else ms) c01 = false := by
  cases h : periodClamped ms with
  | false => exact h
  | true => exact (by decide : F32.lt c01 c01 = false)

/-- The values of the constants of R163 in units, and of the increment of 0.1 ms (R164). -/
theorem period_constants :
    F32.val pscale = 89478488 ∧ F32.val c01 = 13421773 / 2 ^ 27 ∧
      F32.val 0x4E555556#32 = 894784896 := by
  decide +kernel

theorem val_pscale_div_le {x : Word} (h : F32.val c01 ≤ F32.val x) :
    |F32.val pscale / F32.val x| ≤ |F32.val 0x4E555556#32| := by
  obtain ⟨hpscale, hc01, hmax⟩ := period_constants
  rw [hc01] at h
  have hpos : 0 < F32.val x := lt_of_lt_of_le (by positivity) h
  rw [hpscale, hmax, abs_of_pos (by positivity), abs_of_pos (by positivity), div_le_iff₀ hpos]
  linarith

theorem toNat_stepWord_div_pscale_le {x : Word} (h : F32.lt x c01 = false) :
    (Operand.stepWord (F32.div pscale x)).toNat ≤ 894784896 := by
  have hpscale : F32.isFinite pscale = true := by decide
  obtain ⟨hvpscale, hvc01, hvmax⟩ := period_constants
  rcases F32.isNaN_or_isInf_or_isFinite x with ⟨hnan, -, -⟩ | ⟨-, hinf, -⟩ | ⟨-, -, hfin⟩
  · rw [F32.div_of_isNaN (.inr hnan), Operand.stepWord_of_isNaN rfl]
    exact Nat.zero_le _
  · rw [F32.div_of_isFinite_isInf hpscale hinf]
    exact Operand.toNat_stepWord_le (F32.isFinite_of_abs_val_le_one (by simp)) (by simp)
  · have hle : F32.val c01 ≤ F32.val x := by
      rwa [← not_lt, ← F32.lt_iff_val_lt hfin (by decide), Bool.not_eq_true]
    have hround := F32.abs_val_roundNearest_le (val_pscale_div_le hle)
    have hx : F32.val x ≠ 0 := (lt_of_lt_of_le (hvc01 ▸ by positivity) hle).ne'
    rw [F32.div_eq_roundNearest hpscale hfin (hvpscale ▸ by norm_num) hx]
    refine Operand.toNat_stepWord_le (F32.isFinite_of_abs_val_le hround (by decide)) ?_
    calc F32.val (F32.roundNearest (F32.val pscale / F32.val x))
        ≤ |F32.val 0x4E555556#32| := (le_abs_self _).trans hround
      _ = (894784896 : ℕ) := by rw [hvmax]; norm_num

/-- Settles O54: the period divided by is at least 0.1 ms, so the exact quotient is at most the
datum 894784896. -/
theorem noPeriodExceedsTheIncrementOfATenthMillisecond :
    Obligations.NoPeriodExceedsTheIncrementOfATenthMillisecond := by
  intro ms s
  refine ⟨_, completes_lfosetper ms s, ?_⟩
  rw [State.answer_incr, State.setPeriod_incr]
  exact toNat_stepWord_div_pscale_le (lt_clamped_period ms)

end Sys2Proof.Machine
end

section
/-! PROOFS. The waveforms LFOSTEP.SINE, LFOSTEP.TRI and LFOSTEP.SAW (spec/43_lfo.md R165 to
R170). -/

namespace Sys2Proof.Operand

theorem u2f_range (v : Word) :
    F32.isFinite (u2f v) = true ∧ 0 ≤ F32.val (u2f v) ∧
      F32.val (u2f v) ≤ 1 - 1 / 2 ^ 24 := by
  obtain ⟨hfin, -, hle, hgreatest⟩ :=
    F32.roundTowardZero_of_nonneg (by positivity : (0 : ℚ) ≤ v.toNat / 2 ^ 32)
  rw [← u2f_eq_roundTowardZero] at hfin hle hgreatest
  have hnonneg : 0 ≤ F32.val (u2f v) := by
    simpa using hgreatest (F32.zero false) rfl (by rw [F32.val_zero]; positivity)
  have hlt : |F32.val (u2f v)| < 1 := by
    rw [abs_of_nonneg hnonneg]
    exact hle.trans_lt (fraction_lt_one v)
  exact ⟨hfin, hnonneg, (le_abs_self _).trans (F32.abs_val_le_of_lt_one hlt)⟩

theorem abs_val_u2f_le (v : Word) : |F32.val (u2f v)| ≤ 1 - 1 / 2 ^ 24 := by
  obtain ⟨-, hnonneg, hle⟩ := u2f_range v
  rwa [abs_of_nonneg hnonneg]

end Sys2Proof.Operand

namespace Sys2Proof.Machine

/-! ### Folding the phase -/

/-- Bit 0 of the quadrant is bit 30 of the phase. -/
theorem foldedPhase_eq (now : Word) :
    foldedPhase now = if now.getLsbD 30 then ~~~(now <<< 2) else now <<< 2 := by
  rw [foldedPhase, quadrant, BitVec.getLsbD_ushiftRight]

/-- Bit 1 of the quadrant is bit 31 of the phase. -/
theorem waveSign_eq (now m : Word) :
    waveSign now m = if now.getLsbD 31 then F32.neg m else m := by
  rw [waveSign, quadrant, BitVec.getLsbD_ushiftRight]

theorem getLsbD_thirty_iff (w : Word) : w.getLsbD 30 = true ↔ w.toNat / 2 ^ 30 % 2 = 1 := by
  rw [BitVec.getLsbD, Nat.testBit_eq_decide_div_mod_eq, decide_eq_true_eq]

theorem getLsbD_thirtyOne_iff (w : Word) : w.getLsbD 31 = true ↔ w.toNat / 2 ^ 31 = 1 := by
  rw [BitVec.getLsbD, Nat.testBit_eq_decide_div_mod_eq, decide_eq_true_eq]
  have := w.isLt
  omega

theorem toNat_foldedPhase (now : Word) :
    (foldedPhase now).toNat = if now.toNat / 2 ^ 30 % 2 = 1
      then 2 ^ 32 - 1 - now.toNat * 4 % 2 ^ 32 else now.toNat * 4 % 2 ^ 32 := by
  have hshift : (now <<< 2).toNat = now.toNat * 4 % 2 ^ 32 := by
    rw [BitVec.toNat_shiftLeft, Nat.shiftLeft_eq]
  simp only [foldedPhase_eq, getLsbD_thirty_iff]
  split
  · rw [BitVec.toNat_not, hshift]
  · exact hshift

@[simp] theorem isFinite_waveSign (now m : Word) :
    F32.isFinite (waveSign now m) = F32.isFinite m := by
  unfold waveSign
  split
  · exact F32.isFinite_neg m
  · rfl

@[simp] theorem abs_val_waveSign (now m : Word) : |F32.val (waveSign now m)| = |F32.val m| := by
  unfold waveSign
  split
  · rw [F32.val_neg, abs_neg]
  · rfl

/-! ### The commands -/

/-- The phase advance and an answer change PHASE and the response. -/
theorem State.keepsRegisters_advancePhase_answer (s : State) (res : Word) :
    KeepsRegistersBut [.phase] s (s.advancePhase.answer res) := by
  refine ⟨fun r hr => ?_, rfl, rfl, rfl⟩
  rw [State.readReg_answer, s.readReg_advancePhase (List.ne_of_not_mem_cons hr)]

/-- A command that advances the phase and answers. -/
theorem completes_of_exec_advancePhase {i : Instr} {s : State} {res : Word}
    (h : exec i s = .next (s.advancePhase.answer res)) :
    ∃ u, Completes i s u res ∧ u.phase = s.phase + s.incr ∧ KeepsRegistersBut [.phase] s u ∧
      SameRam s u :=
  ⟨_, ⟨h, rfl, rfl⟩, rfl, s.keepsRegisters_advancePhase_answer res, fun _ => rfl⟩

/-- Settles O47: the output is U2F of the phase before the advance. -/
theorem lfostepSawIsTheFractionOfThePhase : Obligations.LfostepSawIsTheFractionOfThePhase :=
  fun s => completes_of_exec_advancePhase (exec_lfostepSaw s)

/-- Settles O46, by the arithmetic of the folded phase and of the sign bit. -/
theorem lfostepTriFoldsThePhase : Obligations.LfostepTriFoldsThePhase := by
  intro s
  obtain ⟨u, hcompletes, hframe⟩ := completes_of_exec_advancePhase (exec_lfostepTri s)
  refine ⟨_, _, u, toNat_foldedPhase s.phase, rfl, ?_, hframe⟩
  simpa only [triangle, waveSign_eq, getLsbD_thirtyOne_iff] using hcompletes

theorem sineIndex_eq (c : Config) (now : Word) :
    sineIndex c now = (foldedPhase now).toNat / 2 ^ (32 - c.qsinLog2) := by
  rw [sineIndex, BitVec.toNat_ushiftRight, Nat.shiftRight_eq_div_pow]

/-- The ROM is never read past its last word (R168). -/
theorem sineIndex_lt_steps (c : Config) (now : Word) : sineIndex c now < c.steps := by
  obtain ⟨-, -, -, hle, -⟩ := c.legal
  rw [sineIndex_eq, Nat.div_lt_iff_lt_mul (Nat.two_pow_pos _), Config.steps, ← pow_add,
    Nat.add_sub_cancel' (by omega)]
  exact (foldedPhase now).isLt

/-- Settles O45: the two words are those of RomRead, at indices that are in the ROM. -/
theorem lfostepSineInterpolatesTheRom : Obligations.LfostepSineInterpolatesTheRom := by
  intro s
  obtain ⟨u, hcompletes, hframe⟩ := completes_of_exec_advancePhase (exec_lfostepSine s)
  have hindex := sineIndex_lt_steps s.config s.phase
  have ha := sineRom_getElem?_eq_romRead hindex.le
  have hb := sineRom_getElem?_eq_romRead (Nat.succ_le_of_lt hindex)
  rw [sineIndex_eq] at ha hb
  refine ⟨_, _, _, _, u, foldedPhase_eq s.phase, ha, hb, rfl, ?_, hframe⟩
  rw [sine, waveSign_eq, sineIndex_eq] at hcompletes
  exact hcompletes

/-! ### The ranges of the triangle and the sawtooth -/

/-- Settles O48: both are U2F of a word, the triangle with a sign. -/
theorem triangleAndSawtoothStayInRange : Obligations.TriangleAndSawtoothStayInRange := by
  intro now
  rw [triangle, isFinite_waveSign, abs_val_waveSign]
  exact ⟨(Operand.u2f_range _).1, Operand.abs_val_u2f_le _, Operand.u2f_range now⟩

/-! ### The range of the sine -/

/-- The rounded difference of the table words may exceed the exact one, but by no more than 2^-25,
which the last rounding takes back. -/
theorem abs_val_interpolate_le_one {a b f : Word} (ha : F32.isFinite a = true)
    (hb : F32.isFinite b = true) (hf : F32.isFinite f = true) (h0 : 0 ≤ F32.val a)
    (hab : F32.val a ≤ F32.val b) (h1 : F32.val b ≤ 1) (hf1 : |F32.val f| ≤ 1) :
    |F32.val (interpolate a b f)| ≤ 1 := by
  have hexact : |F32.val b - F32.val a| = F32.val b - F32.val a := abs_of_nonneg (by linarith)
  have hdiff : |F32.val (F32.sub b a)| ≤ F32.val b - F32.val a + 1 / 2 ^ 25 := by
    rw [F32.val_sub_eq hb ha]
    exact (F32.abs_val_roundNearest_le_add (by linarith)).trans_eq (by rw [hexact])
  have hdiff1 : |F32.val (F32.sub b a)| ≤ 1 := by
    rw [F32.val_sub_eq hb ha]
    refine F32.abs_val_roundNearest_le_one ?_
    rw [hexact]
    linarith [show (0 : ℚ) < 1 / 2 ^ 24 by positivity]
  have hdfin := F32.isFinite_of_abs_val_le_one hdiff1
  have hprod : |F32.val (F32.mul (F32.sub b a) f)| ≤ |F32.val (F32.sub b a)| := by
    rw [F32.val_mul_eq hdfin hf]
    refine F32.abs_val_roundNearest_le ?_
    rw [abs_mul]
    exact mul_le_of_le_one_right (abs_nonneg _) hf1
  obtain ⟨hlow, hhigh⟩ := abs_le.mp hprod
  rw [interpolate, F32.val_add_eq ha (F32.isFinite_of_abs_val_le hprod hdfin)]
  refine F32.abs_val_roundNearest_le_one (abs_lt.mpr ⟨?_, ?_⟩)
  · linarith
  · linarith

section DefaultRom

variable {c : Config} (hrom : c.sineRom = defaultSineRom)
include hrom

theorem steps_of_defaultSineRom : c.steps = 512 := by
  obtain ⟨-, -, -, -, hlength⟩ := c.legal
  rw [hrom, length_defaultSineRom] at hlength
  exact (Nat.succ_injective hlength).symm

/-- The table rises (R130). -/
theorem romRead_mono {i j : Nat} (hij : i ≤ j) (hj : j ≤ c.steps) :
    (romRead c i).toNat ≤ (romRead c j).toNat := by
  rcases hij.eq_or_lt with rfl | hlt
  · exact le_rfl
  · have hpairwise : defaultSineRom.Pairwise fun a b => a.toNat ≤ b.toNat :=
      List.isChain_iff_pairwise.mp defaultSineRom_isChain_le
    have hi := sineRom_getElem?_eq_romRead (hij.trans hj)
    have hj := sineRom_getElem?_eq_romRead hj
    rw [hrom, List.getElem?_eq_some_iff] at hi hj
    obtain ⟨hilt, hi⟩ := hi
    obtain ⟨hjlt, hj⟩ := hj
    rw [← hi, ← hj]
    exact List.pairwise_iff_getElem.mp hpairwise i j hilt hjlt hlt

theorem romRead_le_one {i : Nat} (h : i ≤ c.steps) : (romRead c i).toNat ≤ 0x3F800000 := by
  obtain ⟨-, hend⟩ := defaultSineRom_endpoints
  have hlast := sineRom_getElem?_eq_romRead (c := c) le_rfl
  rw [hrom, steps_of_defaultSineRom hrom, hend, Option.some_inj] at hlast
  calc (romRead c i).toNat ≤ (romRead c c.steps).toNat := romRead_mono hrom h le_rfl
    _ = 0x3F800000 := by rw [steps_of_defaultSineRom hrom, ← hlast]; rfl

theorem romRead_range {i : Nat} (h : i ≤ c.steps) :
    F32.isFinite (romRead c i) = true ∧ 0 ≤ F32.val (romRead c i) ∧ F32.val (romRead c i) ≤ 1 := by
  have hle := romRead_le_one hrom h
  have hval := F32.val_eq_abs_of_toNat_lt (hle.trans_lt (by decide))
  have h1 : F32.val (romRead c i) ≤ F32.val 0x3F800000#32 :=
    F32.val_le_val_of_toNat_le hle (by decide)
  rw [F32.val_one] at h1
  exact ⟨F32.isFinite_of_abs_val_le_one (hval.symm.trans_le h1), hval ▸ abs_nonneg _, h1⟩

theorem abs_val_sine_le_one (now : Word) : |F32.val (sine c now)| ≤ 1 := by
  have hindex := sineIndex_lt_steps c now
  have hnext := Nat.succ_le_of_lt hindex
  obtain ⟨hafin, ha0, -⟩ := romRead_range hrom hindex.le
  obtain ⟨hbfin, -, hb1⟩ := romRead_range hrom hnext
  have hab := F32.val_le_val_of_toNat_le (romRead_mono hrom (Nat.le_succ _) hnext)
    ((romRead_le_one hrom hnext).trans_lt (by decide))
  obtain ⟨hffin, -, -⟩ := Operand.u2f_range (foldedPhase now <<< c.qsinLog2)
  have hf := Operand.abs_val_u2f_le (foldedPhase now <<< c.qsinLog2)
  rw [sine, abs_val_waveSign]
  exact abs_val_interpolate_le_one hafin hbfin hffin ha0 hab hb1 (hf.trans (by norm_num))

end DefaultRom

/-- Settles O49: the sine interpolates between neighbouring words of the table, which rise from 0
to 1. -/
theorem sineStaysInRange : Obligations.SineStaysInRange := fun _ now hrom =>
  have hle := abs_val_sine_le_one hrom now
  ⟨F32.isFinite_of_abs_val_le_one hle, hle⟩

end Sys2Proof.Machine
end

section
/-! PROOFS. Rounding a datum and adding a zero, and the smoother SMOOTH (spec/44_smoothing.md R180,
R181). -/

namespace Sys2Proof.F32

/-- RNE leaves a nonzero datum (R11). -/
theorem roundNearest_val {x : Word} (hfin : isFinite x = true) (h : val x ≠ 0) :
    roundNearest (val x) = x := by
  have hunits : |val x| * 2 ^ 149 = mag x / (1 : ℕ) := by
    rw [abs_val, div_mul_cancel₀ _ (by positivity), Nat.cast_one, div_one]
  have hsign : decide (val x < 0) = sign x := by
    rw [Bool.eq_iff_iff, decide_eq_true_eq, val_lt_zero_iff h]
  rw [roundNearest_eq_rne h one_pos hunits, hsign, rne_mag hfin]

/-- The two zeros are the only data of value 0. -/
theorem eq_zero_of_val_eq_zero {x : Word} (h : val x = 0) : x = zero (sign x) := by
  rw [val_eq_zero_iff, mag_eq_zero_iff] at h
  rw [zero, ← h, pack_sign_bits]

/-- A datum less itself is +0, of either sign. -/
theorem sub_self_of_isFinite {x : Word} (h : isFinite x = true) : sub x x = zero false := by
  obtain ⟨-, hsub, -⟩ := zeroResults_of_isFinite h h
  rw [hsub (sub_self (val x)), Bool.and_not_self]

/-- Adding +0 leaves every datum but -0, where the sum is +0 (R12). -/
theorem add_positive_zero {x : Word} (h : isFinite x = true) :
    add x (zero false) = if x = zero true then zero false else x := by
  rcases eq_or_ne (val x) 0 with hzero | hne
  · have hsum : add x (zero false) = zero false := by
      rw [add_of_val_add_eq_zero h rfl (by rw [hzero, val_zero, add_zero]),
        show sign (zero false) = false from rfl, Bool.and_false]
    rw [hsum, eq_zero_of_val_eq_zero hzero]
    cases sign x with
    | false => rfl
    | true => rfl
  · have hnot : x ≠ zero true := fun heq => hne (heq ▸ val_zero true)
    have hval : val x + val (zero false) = val x := by rw [val_zero, add_zero]
    rw [add_eq_roundNearest h rfl (hval.trans_ne hne), hval, roundNearest_val h hne, if_neg hnot]

end Sys2Proof.F32

namespace Sys2Proof.Machine

theorem completes_smooth (s : State) : Completes .smooth s (s.smooth.answer 0) 0 :=
  ⟨exec_smooth s, rfl, s.smooth_refusalMark⟩

/-- The smoothing update and an answer change CURDLY and the response. -/
theorem State.keepsRegisters_smooth_answer (s : State) (res : Word) :
    KeepsRegistersBut [.curdly] s (s.smooth.answer res) := by
  refine ⟨fun r hr => ?_, rfl, rfl, rfl⟩
  rw [State.readReg_answer, s.readReg_smooth (List.ne_of_not_mem_cons hr)]

/-- Settles O55, by what the smoothing update writes and the echo step leaves of CURDLY. -/
theorem smoothMovesCurdlyTowardTarget : Obligations.SmoothMovesCurdlyTowardTarget := by
  refine fun s => ⟨_, completes_smooth s, rfl, s.keepsRegisters_smooth_answer 0, fun _ => rfl,
    fun x => ⟨_, _, exec_echosample x s, ?_, exec_echostep x s, ?_⟩⟩
  · exact s.smooth.echoStep_curdly x
  · exact s.echoStep_curdly x

/-- At a finite target the step is +0, and what is left is its sum with CURDLY. -/
theorem smoothed_self {x : Word} (h : F32.isFinite x = true) :
    smoothed x x = F32.add x (F32.zero false) := by
  have hstep : F32.mul smoothingRate (F32.zero false) = F32.zero false := by decide
  rw [smoothed, F32.sub_self_of_isFinite h, hstep]

/-- Settles O56: a step of +0 leaves every CURDLY but -0. -/
theorem smoothRestsAtItsTarget : Obligations.SmoothRestsAtItsTarget := by
  intro s hfin htarget
  refine ⟨_, completes_smooth s, ?_⟩
  rw [State.answer_curdly, State.smooth_curdly, htarget, smoothed_self hfin,
    F32.add_positive_zero hfin]
  rfl

end Sys2Proof.Machine
end

section
/-! PROOFS. The data that an echo step computes with (spec/45_echo.md R195): halving is division by
two, and counts below 2^24 are data. -/

namespace Sys2Proof.F32

/-- Settles O29, by the class of the operand: on a nonzero finite one the two exact results are one
rational, and on an infinity or a zero the sign of 0.5 is that of 2.0. -/
theorem halvingIsDivisionByTwo : Obligations.HalvingIsDivisionByTwo := by
  intro x
  have hsign : xorSign x 0x3F000000#32 = xorSign x 0x40000000#32 := rfl
  rcases isNaN_or_isInf_or_isFinite x with ⟨hnan, -, -⟩ | ⟨-, hinf, -⟩ | ⟨-, -, hfin⟩
  · rw [mul_of_isNaN (.inl hnan), div_of_isNaN (.inl hnan)]
  · rw [mul_of_isInf hinf rfl, if_neg (by decide), div_of_isInf_isFinite hinf rfl, hsign]
  · have hhalf : val 0x3F000000#32 = 1 / 2 := by decide +kernel
    have htwo : val 0x40000000#32 = 2 := by decide +kernel
    rcases eq_or_ne (val x) 0 with hzero | hne
    · obtain ⟨-, -, hmul, -⟩ := zeroResults_of_isFinite hfin (y := 0x3F000000#32) rfl
      obtain ⟨-, -, -, hdiv, -⟩ := zeroResults_of_isFinite hfin (y := 0x40000000#32) rfl
      rw [hmul (by rw [hzero, zero_mul]), hdiv hzero (htwo ▸ two_ne_zero), hsign]
    · have hprod : val x * val 0x3F000000#32 ≠ 0 := mul_ne_zero hne (hhalf ▸ by norm_num)
      rw [mul_eq_roundNearest hfin rfl hprod,
        div_eq_roundNearest hfin rfl hne (htwo ▸ two_ne_zero), hhalf, htwo, mul_one_div]

theorem exists_val_eq_natCast {n : Nat} (h : n < 2 ^ 24) :
    ∃ x, isFinite x = true ∧ val x = n := by
  have hspacing : spacing (n * 2 ^ 149) ≤ 149 := by
    rcases Nat.eq_zero_or_pos n with rfl | hpos
    · simp [spacing]
    · have hlog : Nat.log2 (n * 2 ^ 149) < 173 := (Nat.log2_lt (by positivity)).mpr (by omega)
      rw [spacing]
      omega
  obtain ⟨x, hfin, hsign, hmag⟩ := exists_mag_eq_of_dvd (n := n * 2 ^ 149) (by omega)
    ((pow_dvd_pow 2 hspacing).mul_left n)
  refine ⟨x, hfin, ?_⟩
  rw [val_of_sign, hsign, if_neg Bool.false_ne_true, abs_val, hmag, Nat.cast_mul, Nat.cast_pow,
    Nat.cast_ofNat, mul_div_cancel_right₀ _ (by positivity)]

/-- Adding 1.0 to a count below 2^24 - 1 is exact. -/
theorem add_one_of_val_eq_natCast {x : Word} {j : Nat} (hfin : isFinite x = true) (h : val x = j)
    (hj : j + 1 < 2 ^ 24) :
    isFinite (add 0x3F800000#32 x) = true ∧ val (add 0x3F800000#32 x) = (j + 1 : ℕ) := by
  obtain ⟨y, hyfin, hyval⟩ := exists_val_eq_natCast hj
  have hsum : val 0x3F800000#32 + val x = val y := by
    rw [val_one, h, hyval, Nat.cast_succ, add_comm]
  have hne : val y ≠ 0 := by
    rw [hyval]
    exact Nat.cast_ne_zero.mpr (Nat.succ_ne_zero j)
  rw [add_eq_roundNearest rfl hfin (hsum.trans_ne hne), hsum, roundNearest_val hyfin hne]
  exact ⟨hyfin, hyval⟩

end Sys2Proof.F32
end

section
/-! PROOFS. The echo commands ECHOINIT, ECHOSTEP and ECHOSAMPLE (spec/45_echo.md R190 to R197). -/

namespace Sys2Proof.Machine

/-! ### ECHOINIT -/

theorem targetInRange_iff (c : Config) (smp : Word) :
    targetInRange c smp = true ↔ F32.lt 0 smp = true ∧ F32.ltNat smp c.capacity = true :=
  Bool.and_eq_true_iff

/-- The flags of ECHOINIT on top of those of its SetPeriod. -/
theorem State.echoInit_status_eq (s : State) (p1 p3 p4 : Word) :
    (s.echoInit p1 p3 p4).status = (s.setPeriod (F32.mul p3 c4)).status |||
      (if targetInRange s.config (targetSamples p1) then 0 else Flag.tgtign.word) |||
      Flag.initd.word := by
  have hswap (w a b : Word) : w ||| a ||| b = w ||| b ||| a := by ac_rfl
  rw [State.echoInit_status, State.setPeriod_status, State.setPeriod_status,
    State.echoSetTarget_status]
  congr 1
  cases targetInRange s.config (targetSamples p1) with
  | true => exact BitVec.or_zero.symm
  | false =>
    cases periodClamped (F32.mul p3 c4) with
    | true => exact hswap _ _ _
    | false => rfl

theorem State.keepsRegisters_echoInit_answer (s : State) (p1 p3 p4 res : Word) :
    KeepsRegistersBut [.tgtdly, .incr, .feedback, .status] s
      ((s.echoInit p1 p3 p4).answer res) := by
  refine ⟨fun r hr => ?_, by simp, by simp, by simp⟩
  simp only [List.mem_cons, List.not_mem_nil, or_false, not_or] at hr
  obtain ⟨htgtdly, hincr, hfeedback, hstatus⟩ := hr
  rw [State.readReg_answer, s.readReg_echoInit htgtdly hincr hfeedback hstatus]

/-- Settles O57, by what EchoInit leaves in each register that it writes. -/
theorem echoinitSetsTheEffectParameters : Obligations.EchoinitSetsTheEffectParameters := by
  intro p1 p2 p3 p4 s
  refine ⟨targetSamples p1, _, _,
    ⟨exec_echoinit p1 p2 p3 p4 s, rfl, s.echoInit_refusalMark p1 p3 p4⟩, exec_lfosetper _ s, rfl, ?_, ?_,
    s.echoInit_incr p1 p3 p4, s.echoInit_feedback p1 p3 p4,
    s.keepsRegisters_echoInit_answer p1 p3 p4 0,
    fun i => congrArg (Memory.read · i) (s.echoInit_ram p1 p3 p4)⟩
  · simp only [← targetInRange_iff]
    exact s.echoInit_tgtdly p1 p3 p4
  · simp only [← targetInRange_iff]
    exact s.echoInit_status_eq p1 p3 p4

/-! ### ECHOSTEP -/

theorem completes_echostep (x : Word) (s : State) :
    Completes (.echostep x) s ((s.echoStep x).answer (s.echoOutput x)) (s.echoOutput x) :=
  ⟨exec_echostep x s, rfl, s.echoStep_refusalMark x⟩

theorem State.keepsRegisters_echoStep_answer (s : State) (x res : Word) :
    KeepsRegistersBut [.cursor, .status] s ((s.echoStep x).answer res) := by
  refine ⟨fun r hr => ?_, by simp, by simp, by simp⟩
  simp only [List.mem_cons, List.not_mem_nil, or_false, not_or] at hr
  obtain ⟨hcursor, hstatus⟩ := hr
  rw [State.readReg_answer, s.readReg_echoStep hcursor hstatus]

/-- An echo step writes one RAM word, at the advanced cursor. -/
theorem State.ramWithWord_echoStep {s : State} (hwf : Memory.wf s.ram = true) (x res : Word) :
    RamWithWord (s.ramIndex (s.cursor + 1)) (s.echoWritten x) s
      ((s.echoStep x).answer res) := by
  intro i
  rw [State.ramRead, State.answer_ram, State.echoStep_ram, Memory.read_write _ _ _ hwf,
    State.ramRead]

/-- Settles O58: both commands read the delay at the same tap, and the write goes to the state that
the read has left. -/
theorem echostepReadsThenWrites : Obligations.EchostepReadsThenWrites := by
  intro x s hinv
  obtain ⟨hwf, -, -⟩ := s.inv_iff.mp hinv
  exact ⟨_, _, _, completes_dlyrd s.echoTap s, completes_echostep x s, s.echoStep_status x,
    s.echoStep_cursor x, State.ramWithWord_echoStep hwf x _, s.keepsRegisters_echoStep_answer x _⟩

/-! ### ECHOSAMPLE -/

/-- The response that a command before has left does not reach an echo step. -/
theorem State.echoStep_answer (s : State) (x res : Word) :
    (s.answer res).echoStep x = (s.echoStep x).answer res := by
  have hread : (s.answer res).delayRead s.echoTap = (s.delayRead s.echoTap).answer res := by
    unfold State.delayRead State.raiseIf
    rw [State.answer_config]
    split
    · rfl
    · rfl
  exact congrArg (State.delayWrite · (s.echoWritten x)) hread

theorem execAll_smooth_echostep (x : Word) (s : State) :
    execAll [.smooth, .echostep x] s =
      .next ((s.smooth.echoStep x).answer (s.smooth.echoOutput x)) := by
  change Host.Outcome.next (((s.smooth.answer 0).echoStep x).answer (s.smooth.echoOutput x)) = _
  rw [State.echoStep_answer]
  rfl

theorem State.keepsRegisters_smooth_echoStep_answer (s : State) (x res : Word) :
    KeepsRegistersBut [.curdly, .cursor, .status] s ((s.smooth.echoStep x).answer res) := by
  obtain ⟨hregisters, hconfig, hinputs, hresponses⟩ :=
    s.smooth.keepsRegisters_echoStep_answer x res
  refine ⟨fun r hr => ?_, hconfig, hinputs, hresponses⟩
  rw [List.mem_cons, not_or] at hr
  obtain ⟨hcurdly, hrest⟩ := hr
  rw [hregisters r hrest, s.readReg_smooth hcurdly]

/-- Settles O59: the two commands in turn differ from the one in the response between them. -/
theorem echosampleIsSmoothThenEchostep : Obligations.EchosampleIsSmoothThenEchostep := by
  refine ⟨fun _ _ _ _ => decode_of_word (.echosample 0) rfl rfl, fun x s => ?_⟩
  refine ⟨_, _, ⟨exec_echosample x s, rfl, s.smooth.echoStep_refusalMark x⟩,
    execAll_smooth_echostep x s, s.smooth.echoStep_cursor x, s.smooth.echoStep_curdly x,
    s.keepsRegisters_smooth_echoStep_answer x _, fun hinv => ?_⟩
  obtain ⟨hwf, -, -⟩ := s.inv_iff.mp hinv
  exact ⟨_, State.ramWithWord_echoStep (s := s.smooth) hwf x _⟩

/-! ### The length of the echo loop -/

/-- What holds of a state `u` that `n` echo steps, fewer than the capacity, lead to from `t`: the
newest word of `t` stands where it was, `n` slots behind the cursor. -/
structure NewestWordKept (t : State) (n : Nat) (u : State) : Prop where
  config : u.config = t.config
  curdly : u.curdly = t.curdly
  wf : Memory.wf u.ram = true
  cursor : u.cursor - BitVec.ofNat 32 n = t.cursor
  newest : u.ramRead (t.ramIndex t.cursor) = t.ramRead (t.ramIndex t.cursor)

theorem NewestWordKept.refl {t : State} (h : Memory.wf t.ram = true) : NewestWordKept t 0 t :=
  ⟨rfl, rfl, h, sub_zero t.cursor, rfl⟩

/-- One echo step more writes another slot. -/
theorem NewestWordKept.echoStep {t u : State} {n : Nat} (h : NewestWordKept t n u)
    (hn : n + 1 < t.config.capacity) (x res : Word) :
    NewestWordKept t (n + 1) ((u.echoStep x).answer res) := by
  obtain ⟨hconfig, hcurdly, hwf, hcursor, hnewest⟩ := h
  have hcursor' : u.cursor + 1 - BitVec.ofNat 32 (n + 1) = t.cursor := by
    rw [← hcursor, BitVec.ofNat_add]
    bv_omega
  have hslot : u.ramIndex = t.ramIndex := by
    unfold State.ramIndex
    rw [hconfig]
  have hother : t.ramIndex t.cursor ≠ u.ramIndex (u.cursor + 1) := by
    rw [← hcursor', ← hslot]
    exact u.ramIndex_sub_ne (u.cursor + 1) (Nat.succ_pos n) (hconfig ▸ hn)
  refine ⟨(u.echoStep_config x).trans hconfig, (u.echoStep_curdly x).trans hcurdly, ?_, ?_, ?_⟩
  · rw [State.answer_ram, State.echoStep_ram]
    exact Memory.wf_write _ _ hwf
  · rw [State.answer_cursor, State.echoStep_cursor, hcursor']
  · rw [State.ramWithWord_echoStep hwf x res, if_neg hother, hnewest]

theorem NewestWordKept.exists_execAll {t : State} (xs : List Word) {u : State} {n : Nat}
    (h : NewestWordKept t n u) (hn : n + xs.length < t.config.capacity) :
    ∃ v, execAll (xs.map .echostep) u = .next v ∧ NewestWordKept t (n + xs.length) v := by
  induction xs generalizing u n with
  | nil => exact ⟨u, rfl, h⟩
  | cons x xs ih =>
    rw [List.length_cons, Nat.add_comm xs.length, ← Nat.add_assoc] at hn ⊢
    exact ih (h.echoStep (by omega) x _) hn

/-- The tap of the echo step after `j + 1` others, at CURDLY `j`. -/
theorem NewestWordKept.delayValue {t u : State} {j : Nat} (h : NewestWordKept t (j + 1) u)
    (hfin : F32.isFinite t.curdly = true) (hval : F32.val t.curdly = j)
    (hj : j + 1 < t.config.capacity) :
    u.delayValue u.echoTap = t.ramRead (t.ramIndex t.cursor) := by
  have hsmall : j + 1 < 2 ^ 24 :=
    hj.trans_le (Nat.pow_le_pow_right two_pos t.config.legal.2.1)
  rw [← h.curdly] at hfin hval
  obtain ⟨htapfin, htapval⟩ := F32.add_one_of_val_eq_natCast hfin hval hsmall
  have hread : u.delayValue u.echoTap =
      u.ramRead (u.ramIndex (u.cursor - BitVec.ofNat 32 (j + 1))) :=
    u.delayValue_of_val_eq_natCast htapfin htapval
  rw [hread, h.cursor, State.ramIndex, h.config]
  exact h.newest

/-- Settles O60: the `j + 1` steps between leave the written word `j + 1` slots behind the cursor,
which is where the tap `1 ⊕ CURDLY` reads. -/
theorem echoLoopDelayIsCurdlyPlusTwo : Obligations.EchoLoopDelayIsCurdlyPlusTwo := by
  intro x y between s j hinv hfin hval hj hlength
  obtain ⟨hwf, -, -⟩ := s.inv_iff.mp hinv
  have hcurdly : ((s.echoStep x).answer (s.echoOutput x)).curdly = s.curdly := s.echoStep_curdly x
  have hconfig : ((s.echoStep x).answer (s.echoOutput x)).config = s.config := s.echoStep_config x
  have hwf' : Memory.wf ((s.echoStep x).answer (s.echoOutput x)).ram = true := by
    rw [State.answer_ram, State.echoStep_ram]
    exact Memory.wf_write _ _ hwf
  refine ⟨(s.echoStep x).answer (s.echoOutput x), ?_⟩
  obtain ⟨u, hexec, hkept⟩ := (NewestWordKept.refl hwf').exists_execAll between
    (by rwa [hconfig, hlength, Nat.zero_add])
  rw [hlength, Nat.zero_add] at hkept
  have htap := hkept.delayValue (hcurdly ▸ hfin) (hcurdly ▸ hval) (hconfig ▸ hj)
  have hnext := completes_echostep y u
  rw [State.echoOutput, htap] at hnext
  exact ⟨u, _, _, _, completes_echostep x s, rfl, hexec, hnext⟩

end Sys2Proof.Machine
end

section
/-! PROOFS. The control commands NOP, RDREG and WRREG (spec/46_control.md R210 to R212). -/

namespace Sys2Proof.Machine

/-- Settles O20: NOP's only effect is its answer. -/
theorem nopChangesNothing : Obligations.NopChangesNothing :=
  fun s => ⟨_, completes_of_exec_answer (exec_nop s)⟩

/-- Settles O21: RDREG's only effect is its answer. -/
theorem rdregAnswersTheRegister : Obligations.RdregAnswersTheRegister :=
  fun r s => ⟨_, completes_of_exec_answer (exec_rdreg r s)⟩

/-! ### WRREG -/

theorem completes_wrreg {r : Reg} (h : r ≠ .cfg) (v : Word) (s : State) :
    Completes (.wrreg r v) s ((s.writeReg r v).answer 0) 0 :=
  ⟨exec_wrreg h v s, rfl, s.writeReg_refusalMark r v⟩

theorem State.keepsRegisters_writeReg_answer (s : State) (r : Reg) (v res : Word) :
    KeepsRegistersBut [r] s ((s.writeReg r v).answer res) := by
  refine ⟨fun q hq => ?_, s.writeReg_config r v, s.writeReg_inputs r v, s.writeReg_responses r v⟩
  rw [State.readReg_answer, s.readReg_writeReg_other v (List.ne_of_not_mem_cons hq)]

theorem State.sameRam_writeReg_answer (s : State) (r : Reg) (v res : Word) :
    SameRam s ((s.writeReg r v).answer res) :=
  fun i => congrArg (Memory.read · i) (s.writeReg_ram r v)

/-- What `refuse` leaves is what R220 says of a refusal. -/
theorem State.refusedFrom_refuse (s : State) : RefusedFrom s s.refuse :=
  ⟨rfl, rfl, rfl, ⟨fun _ hr => s.readReg_refuse (List.ne_of_not_mem_cons hr), rfl, rfl, rfl⟩,
    fun _ => rfl⟩

/-- Settles O22: STATUS takes the W1C rule and every other register the value; CFG is refused. -/
theorem wrregWritesTheNamedRegister : Obligations.WrregWritesTheNamedRegister := by
  refine ⟨fun r v s hcfg => ?_, fun v s => ⟨_, exec_wrreg_cfg v s, s.refusedFrom_refuse⟩⟩
  have hread : ((s.writeReg r v).answer 0).readReg r =
      if r = .status then clearedStatus s.status v else v :=
    (State.readReg_answer _ 0).trans (s.readReg_writeReg_same r v hcfg)
  refine ⟨_, completes_wrreg hcfg v s, s.keepsRegisters_writeReg_answer r v 0,
    s.sameRam_writeReg_answer r v 0, fun hstatus => ?_, ?_⟩
  · rw [hread, if_neg hstatus]
  · rintro rfl k
    exact getLsbD_clearedStatus s.status v k

end Sys2Proof.Machine
end

section
/-! PROOFS. Refusals, and that nothing stops the core (spec/60_exceptions.md R220 to R225). -/

namespace Sys2Proof.Machine

/-! ### Every command and every edge gives a next state -/

/-- `afterExec` is `exec`: no command faults, and one that the core refuses has a next state. -/
theorem exec_eq_next_afterExec (i : Instr) (s : State) : exec i s = .next (s.afterExec i) := by
  cases i with
  | wrreg r v =>
    by_cases hr : r = .cfg
    · subst hr
      rfl
    · rw [State.afterExec_wrreg hr, exec_wrreg hr]
  | qsin index =>
    rw [State.afterExec_qsin]
    split
    next habove => exact exec_qsin_above habove
    next hwithin => exact exec_qsin_within (Nat.not_lt.mp hwithin)
  | _ => rfl

theorem runCommand_of_reserved {c : Command} {e : Reserved} (h : decode c = .error e) (s : State) :
    runCommand c s = .next s.refuse := by
  rw [runCommand, h]

theorem exists_runCommand_eq_next (c : Command) (s : State) : ∃ t, runCommand c s = .next t := by
  cases hdecode : decode c with
  | ok i => exact ⟨_, (runCommand_of_decode hdecode s).trans (exec_eq_next_afterExec i s)⟩
  | error e => exact ⟨_, runCommand_of_reserved hdecode s⟩

theorem State.edge_of_rst {e : PortInput} (h : e.rst = true) (s : State) :
    s.edge e = .next s.resetAll :=
  if_pos h

theorem State.edge_of_idle {s : State} {e : PortInput} (hrst : e.rst = false)
    (hcmd : e.cmd = none) (hrsp : s.rsp = none) : s.edge e = .next s := by
  simp [State.edge, hrst, hcmd, hrsp]

theorem State.exists_edge_eq_next (s : State) (e : PortInput) : ∃ t, s.edge e = .next t := by
  cases hrst : e.rst with
  | true => exact ⟨_, State.edge_of_rst hrst s⟩
  | false =>
    cases hrsp : s.rsp with
    | some r => exact ⟨_, State.edge_of_held hrst hrsp⟩
    | none =>
      cases hcmd : e.cmd with
      | none => exact ⟨_, State.edge_of_idle hrst hcmd hrsp⟩
      | some c =>
        rw [State.edge_of_accepted hrst hcmd hrsp]
        exact exists_runCommand_eq_next c s

theorem step_of_no_inputs {s : State} (h : s.inputs = []) : step s = .next s := by
  rw [step, h]

/-- Settles O11: every command has a next state, hence every edge of the port, hence every step. -/
theorem nothingStopsTheCore : Obligations.NothingStopsTheCore := by
  refine ⟨fun i s => ⟨_, exec_eq_next_afterExec i s⟩, fun s => ?_⟩
  cases hinputs : s.inputs with
  | nil => exact ⟨_, step_of_no_inputs hinputs⟩
  | cons e rest =>
    rw [step_of_inputs hinputs]
    exact State.exists_edge_eq_next _ e

/-! ### Refusals -/

/-- Settles O10: a reserved word and a QSIN index above STEPS both end in `refuse`. -/
theorem refusalOnlySetsIllcmd : Obligations.RefusalOnlySetsIllcmd :=
  ⟨fun _ s _ h => ⟨_, runCommand_of_reserved h s, s.refusedFrom_refuse⟩,
    fun _ s h => ⟨_, exec_qsin_above h, s.refusedFrom_refuse⟩⟩

/-- A command is refused, or it leaves the run-wide mark of R220 alone. -/
theorem State.afterExec_eq_refuse_or_refusalMark (s : State) (i : Instr) :
    s.afterExec i = s.refuse ∨ (s.afterExec i).refusalMark = s.refusalMark := by
  cases i with
  | wrreg r v =>
    by_cases hr : r = .cfg
    · subst hr
      exact .inl rfl
    · exact .inr (by rw [State.afterExec_wrreg hr, State.answer_refusalMark,
        State.writeReg_refusalMark])
  | qsin index =>
    rw [State.afterExec_qsin]
    split
    · exact .inl rfl
    · exact .inr (s.answer_refusalMark _)
  | _ => exact .inr (by simp [State.afterExec])

theorem State.afterExec_keeps_refusalMark {s : State} (h : s.refusalMark = true) (i : Instr) :
    (s.afterExec i).refusalMark = true := by
  rcases s.afterExec_eq_refuse_or_refusalMark i with hrefuse | hsame
  · exact hrefuse ▸ s.refuse_refusalMark
  · exact hsame.trans h

theorem runCommand_keeps_refusalMark {c : Command} {s t : State} (h : s.refusalMark = true)
    (hrun : runCommand c s = .next t) : t.refusalMark = true := by
  rcases runCommand_next hrun with ⟨i, -, hi⟩ | ⟨-, -, rfl⟩
  · exact State.afterExec_of_exec hi ▸ State.afterExec_keeps_refusalMark h i
  · exact s.refuse_refusalMark

/-- Settles O12: of what an edge can do, only reset clears the mark. -/
theorem refusalMarkLastsUntilReset : Obligations.RefusalMarkLastsUntilReset := by
  intro s t h hmark hrst
  rcases step_next h with ⟨-, rfl⟩ | ⟨e, rest, hinputs, hedge⟩
  · exact hmark
  have hrst' : e.rst = false := hrst e (hinputs ▸ rfl)
  rcases State.edge_next hedge with ⟨hreset, -⟩ |
    ⟨-, ⟨r, -, -, rfl⟩ | ⟨r, -, -, rfl⟩ | ⟨c, -, -, hrun⟩ | ⟨-, -, rfl⟩⟩
  · exact absurd (hrst'.symm.trans hreset) Bool.false_ne_true
  · exact hmark
  · exact hmark
  · exact runCommand_keeps_refusalMark (s := s.setInputs rest) hmark hrun
  · exact hmark

end Sys2Proof.Machine
end

section
/-! PROOFS. Reset: the state it gives, which is the reset state of the model but for the parameters
and the port samples still to come (spec/70_reset_and_hazards.md R240 to R242). -/

namespace Sys2Proof.Machine

/-- Reset gives State.reset back, so what `resetAll` gives from any state holds of it too. -/
theorem State.resetAll_reset : State.reset.resetAll = State.reset := rfl

theorem State.readReg_cfg_resetAll (s : State) : s.resetAll.readReg .cfg = s.readReg .cfg :=
  congrArg cfgWord s.resetAll_config

theorem State.readReg_resetAll {r : Reg} (h : r ≠ .cfg) (s : State) :
    s.resetAll.readReg r = 0 := by
  cases r with
  | cfg => exact absurd rfl h
  | _ => rfl

theorem State.ramRead_resetAll (s : State) (i : Nat) : s.resetAll.ramRead i = 0 :=
  Memory.read_nil i

theorem State.cmdReady_resetAll (s : State) : s.resetAll.cmdReady = true :=
  congrArg Option.isNone s.resetAll_rsp

theorem step_of_rst {s : State} {e : PortInput} {rest : List PortInput}
    (hinputs : s.inputs = e :: rest) (hrst : e.rst = true) :
    step s = .next (s.setInputs rest).resetAll :=
  (step_of_inputs hinputs).trans (State.edge_of_rst hrst _)

/-- Settles O9: the edge ends in `resetAll`, whatever the port holds, and State.reset is itself what
`resetAll` gives. -/
theorem resetGivesTheResetState : Obligations.ResetGivesTheResetState := by
  obtain ⟨-, hcfg, -⟩ := cfgReportsTheSizeParameters
  refine ⟨fun s e rest hinputs hrst => ?_, hcfg, ?_⟩
  · have hcfgKept : (s.setInputs rest).resetAll.readReg .cfg = s.readReg .cfg :=
      (State.readReg_cfg_resetAll _).trans (s.readReg_setInputs rest .cfg)
    exact ⟨_, step_of_rst hinputs hrst, State.resetAll_config _, hcfgKept,
      fun _ hr => State.readReg_resetAll hr _, State.ramRead_resetAll _, State.resetAll_rsp _,
      State.cmdReady_resetAll _, State.resetAll_responses _⟩
  · rw [← State.resetAll_reset]
    exact ⟨fun _ hr => State.reset.readReg_resetAll hr, State.reset.ramRead_resetAll, rfl,
      State.reset.resetAll_rsp, State.reset.cmdReady_resetAll⟩

/-- Settles O14: the invariant holds after any reset, and State.reset is what `resetAll` gives. -/
theorem resetMeetsInvariant : Obligations.ResetMeetsInvariant := by
  unfold Obligations.ResetMeetsInvariant
  rw [← State.resetAll_reset]
  exact State.reset.inv_resetAll

end Sys2Proof.Machine
end
